-- ==== Sys2Proof/Word.lean ====
section
/-! DEFINITION. The words of the block: 32-bit registers (spec/00_scope.md R5), the 36-bit command
(spec/30_encoding.md R32) and the 64-bit result (R35). All of them are unsigned bit patterns (R8). -/

namespace Sys2Proof

/-- One 32-bit register, word or argument (R5, R6). -/
abbrev Word := BitVec 32

/-- The 64-bit RESULT of a response (R35). -/
abbrev Long := BitVec 64

/-- One byte of a requester's byte stream (R21). -/
abbrev Byte := BitVec 8

/-- One 36-bit command word, `{ARG[31:0], OP[3:0]}` (R32). -/
abbrev Command := BitVec 36

/-- The 4-bit OP field (R32). -/
abbrev Opcode := BitVec 4

end Sys2Proof
end

