-- ==== Sys2Proof/Syntax.lean ====
section
/-! DEFINITION. The command set: one constructor per row of spec/opcode_table.json (spec/30_encoding.md R34),
and the requester's source commands with their aliases and pseudo-commands (R39, R40). -/

namespace Sys2Proof

/-- A command of the block. Only `SEED` has an operand (R33); the ARG field of every other command is
ignored, so it is no part of the instruction. -/
inductive Instr where
  /-- SEED v (R42): construct the generator from the 32-bit seed pattern v. -/
  | seed (v : Word)
  /-- WORD (R48): draw one raw 32-bit word. -/
  | word
  /-- NEXT31 (R53): draw one word and keep its low 31 bits. -/
  | next31
  /-- NEXT (R54): draw a 31-bit value that is never 0x7FFFFFFF. -/
  | next
  /-- BOOL (R61): draw one boolean from the bit cache. -/
  | bool
  /-- U64 (R56): draw two words, the first one high. -/
  | u64
  /-- I64 (R57): the same 64 bits as U64, which the requester reads as signed. -/
  | i64
  deriving DecidableEq, Repr

/-- The commands that draw (R68). -/
def Instr.isDraw : Instr → Bool
  | .seed _ => false
  | .word => true
  | .next31 => true
  | .next => true
  | .bool => true
  | .u64 => true
  | .i64 => true

/-- A command as the requester writes it: the seven mnemonics, their six aliases (R39) and the two
pseudo-commands (R40). The operand of SEED is an integer as written, signed or unsigned. -/
inductive SourceCmd where
  | seed (operand : Int)
  | word
  | next31
  | next
  | bool
  | u64
  | i64
  | advance
  | nextWord
  | nextUInt
  | nextULong
  | nextLong
  | nextBool
  | skip (n : Nat)
  | bytes (n : Nat)
  deriving DecidableEq, Repr

end Sys2Proof
end

