-- ==== Sys2Proof/WellFormed.lean ====
section
/-! DEFINITION. Which instructions and source commands are well formed. An instruction's only operand is a raw
32-bit field (spec/30_encoding.md R33), whose width its type fixes, so no instruction is ill formed. A source
command is ill formed when its seed lies outside the range of R39. -/

namespace Sys2Proof

/-- Every instruction is well formed: the seed's width is in its type, and no other command has an operand (R33). -/
def Instr.wf : Instr → Bool
  | .seed _ => true
  | .word => true
  | .next31 => true
  | .next => true
  | .bool => true
  | .u64 => true
  | .i64 => true

/-- The operands SEED may be written with: -2^31 .. 2^32 - 1 (R39). -/
def seedOperandOk (v : Int) : Bool := decide (-2147483648 ≤ v) && decide (v ≤ 4294967295)

/-- A source command is well formed when its operand lies in the range of R39 ("a value outside the range is refused"). -/
def SourceCmd.wf : SourceCmd → Bool
  | .seed v => seedOperandOk v
  | .word => true
  | .next31 => true
  | .next => true
  | .bool => true
  | .u64 => true
  | .i64 => true
  | .advance => true
  | .nextWord => true
  | .nextUInt => true
  | .nextULong => true
  | .nextLong => true
  | .nextBool => true
  | .skip _ => true
  | .bytes _ => true

end Sys2Proof
end

