-- ==== Sys2Proof/Decode.lean ====
section
/-! DEFINITION. Command encoding (spec/30_encoding.md R32 to R38): the decoder, total over all 2^36 words, and the
encoder, both from the opcode map of R34. -/

namespace Sys2Proof

/-- Why a command word selects no command: its OP is reserved (R37). -/
inductive DecodeError where
  /-- OP 0x0 or 0x8 to 0xF, with the OP found. -/
  | illegalOp (op : Opcode)
  deriving DecidableEq, Repr

/-- The OP field, bits 3:0 (R32). -/
def cmdOp (w : Command) : Opcode := w.extractLsb' 0 4

/-- The ARG field, bits 35:4 (R32). -/
def cmdArg (w : Command) : Word := w.extractLsb' 4 32

/-- `cmd[35:0] = {ARG[31:0], OP[3:0]}` (R32). -/
def mkCommand (arg : Word) (op : Opcode) : Command := arg ++ op

/-- The decoder of R38: OP 0x1 to 0x7 selects the command of R34, any other OP the illegal-command outcome. -/
def decode (w : Command) : Except DecodeError Instr :=
  if cmdOp w = 0x1#4 then .ok (.seed (cmdArg w))
  else if cmdOp w = 0x2#4 then .ok .word
  else if cmdOp w = 0x3#4 then .ok .next31
  else if cmdOp w = 0x4#4 then .ok .next
  else if cmdOp w = 0x5#4 then .ok .bool
  else if cmdOp w = 0x6#4 then .ok .u64
  else if cmdOp w = 0x7#4 then .ok .i64
  else .error (.illegalOp (cmdOp w))

/-- The OP value of each command (R34). -/
def Instr.opcode : Instr → Opcode
  | .seed _ => 0x1#4
  | .word => 0x2#4
  | .next31 => 0x3#4
  | .next => 0x4#4
  | .bool => 0x5#4
  | .u64 => 0x6#4
  | .i64 => 0x7#4

/-- A command word of the instruction whose ARG field is `arg` where the command ignores it (R33):
SEED's ARG is its operand. -/
def encodeWith (arg : Word) : Instr → Command
  | .seed v => mkCommand v 0x1#4
  | .word => mkCommand arg 0x2#4
  | .next31 => mkCommand arg 0x3#4
  | .next => mkCommand arg 0x4#4
  | .bool => mkCommand arg 0x5#4
  | .u64 => mkCommand arg 0x6#4
  | .i64 => mkCommand arg 0x7#4

/-- The command word the assembler gives an instruction: an ignored ARG is 0
(spec/95_test_vectors.md writes `WORD` as 0x000000002). -/
def encode (i : Instr) : Command := encodeWith 0#32 i

/-- Opcode-table word number `w`, of which the table gives `nbits` bits, as the 36 wires of the command port
(bits above `nbits` are 0). -/
def tableCommand (nbits w : Nat) : Command := BitVec.ofNat 36 (w % 2 ^ nbits)

/-- The instruction the decoder reads from opcode-table word `w`; none where it finds a reserved OP. -/
def decodeTableWord (nbits w : Nat) : Option Instr :=
  match decode (tableCommand nbits w) with
  | .ok i => some i
  | .error _ => none

end Sys2Proof
end

