-- ==== Sys2Proof/Config.lean ====
section
/-! DEFINITION. What an implementation fixes and the spec leaves OPEN (spec/00_scope.md R5), and the free words that
reset draws (spec/10_state.md R18). Every value here is uninterpreted: no proof can see what it is. -/

namespace Sys2Proof

/-- LATENCY_<cmd> (R87): a number of clock cycles per command. No rule reads it. -/
structure Latency where
  seed : Nat
  word : Nat
  next31 : Nat
  next : Nat
  bool : Nat
  u64 : Nat
  i64 : Nat
  deriving DecidableEq, Repr

/-- The OPEN parameters of R5. -/
structure Params where
  /-- `Y0`, the constant SEED loads into Y (R42). -/
  y0 : Word
  /-- `Z0`, the constant SEED loads into Z (R42). -/
  z0 : Word
  /-- `W0`, the constant SEED loads into W (R42). -/
  w0 : Word
  /-- `BOOL_ONE_IS_TRUE` (R64). -/
  boolOneIsTrue : Bool
  /-- `LATENCY_<cmd>` (R87). -/
  latency : Latency
  deriving DecidableEq, Repr

/-- "a positive number of clock cycles for each command" (R87). -/
def Latency.wf (l : Latency) : Bool :=
  decide (0 < l.seed) && decide (0 < l.word) && decide (0 < l.next31) && decide (0 < l.next)
    && decide (0 < l.bool) && decide (0 < l.u64) && decide (0 < l.i64)

/-- The constraint of R5: each of Y0, Z0 and W0 is non-zero, and each latency is positive (R87). -/
def Params.wf (p : Params) : Bool :=
  decide (p.y0 ≠ 0) && decide (p.z0 ≠ 0) && decide (p.w0 ≠ 0) && p.latency.wf

/-- Which non-zero word Y0 is: the word is this index plus one, so every non-zero word is possible and zero is not. -/
opaque Config.y0Index : Fin 4294967295
/-- Which non-zero word Z0 is, as `Config.y0Index`. -/
opaque Config.z0Index : Fin 4294967295
/-- Which non-zero word W0 is, as `Config.y0Index`. -/
opaque Config.w0Index : Fin 4294967295
/-- BOOL_ONE_IS_TRUE, left OPEN (R64). -/
opaque Config.boolOneIsTrue : Bool
/-- One less than the latency of the command with the given OP (R87). -/
opaque Config.latencyLessOne : Nat → Nat
/-- The free words that reset draws for X, Y, Z and W (R18): "the model must take any 32-bit value". -/
opaque Config.freeWord : Nat → Word

/-- The non-zero word with the given index. -/
def Config.nonZeroWord (i : Fin 4294967295) : Word := BitVec.ofNat 32 (i.val + 1)

/-- The parameters of the block that State.reset holds: any values R5 allows (log entry 1). -/
def Config.params : Params where
  y0 := Config.nonZeroWord Config.y0Index
  z0 := Config.nonZeroWord Config.z0Index
  w0 := Config.nonZeroWord Config.w0Index
  boolOneIsTrue := Config.boolOneIsTrue
  latency :=
    { seed := Config.latencyLessOne 1 + 1
      word := Config.latencyLessOne 2 + 1
      next31 := Config.latencyLessOne 3 + 1
      next := Config.latencyLessOne 4 + 1
      bool := Config.latencyLessOne 5 + 1
      u64 := Config.latencyLessOne 6 + 1
      i64 := Config.latencyLessOne 7 + 1 }

end Sys2Proof
end

