-- ==== Sys2Proof/Machine/State.lean ====
section
/-! DEFINITION. The block's state (spec/10_state.md), its command port, its parameters and its state after reset. -/

namespace Sys2Proof.Machine

/-- The 128-bit generator state {X, Y, Z, W} (R10). -/
structure Gen where
  /-- X -/
  x : Word
  /-- Y -/
  y : Word
  /-- Z -/
  z : Word
  /-- W -/
  w : Word
  deriving DecidableEq, Repr

/-- The CODE field of a response (R35). CODE value 3 is reserved and never returned (R37), so it is no constructor. -/
inductive Code where
  /-- 0: no error. -/
  | ok
  /-- 1: the OP is reserved (R67). -/
  | illegalOp
  /-- 2: a draw before any SEED since reset (R68). -/
  | notSeeded
  deriving DecidableEq, Repr

/-- The block's answer to one command (R35). -/
structure Response where
  code : Code
  /-- STATUS: bit 0 is SEEDED and bit 1 is ERR, as they stand after the command. -/
  status : BitVec 2
  result : Long
  deriving DecidableEq, Repr

/-- What can arrive at the block from outside, in the order the block meets it (log entry 4). -/
inductive PortEvent where
  /-- A command word is accepted (R27). -/
  | command (w : Command)
  /-- Reset while no command is in progress (R79). -/
  | reset
  /-- Reset while the command `w` is in progress: the command is cancelled (R80). -/
  | resetDuring (w : Command)
  deriving DecidableEq, Repr

/-- The state of the block (R10 to R14) and, below it, the model's own fields: the port, the parameters and the
counter of free words (log entries 1, 3, 4, 5). -/
structure State where
  /-- X, Y, Z and W (R10). -/
  gen : Gen
  /-- BITBUF (R14). -/
  bitBuf : Word
  /-- BITMASK (R14). -/
  bitMask : Word
  /-- SEEDED, STATUS bit 0 (R11). -/
  seeded : Bool
  /-- ERR, STATUS bit 1 (R12). -/
  err : Bool
  /-- Commands and resets that have not been met yet, in acceptance order (R27, R28). -/
  inbox : List PortEvent
  /-- Every response sent, oldest first (R35). -/
  outbox : List Response
  /-- The OPEN parameters (R5). No step changes them. -/
  params : Params
  /-- The number of free words reset has drawn (R18). -/
  freeCtr : Nat
  deriving DecidableEq, Repr

/-- Why the machine stops with a fault. -/
inductive Fault where
  /-- Raised by NEXT alone, when five steps in a row give the sentinel: the model returns no value when its fuel runs
  out (R55). R55 says it cannot happen. Safe: the machine stops where the spec says it never comes. -/
  | nextRetryBound
  deriving DecidableEq, Repr

/-- Why an instruction has no meaning. -/
inductive Refusal where
  /-- An instruction that exec rejects by name. Raised by no instruction of this model. Safe: the machine stops. -/
  | notModelled (mnemonic : String)
  deriving DecidableEq, Repr

/-- The unspecified generator state that the reset with counter `n` leaves: four free words (R18). -/
def freeGen (n : Nat) : Gen where
  x := Config.freeWord n
  y := Config.freeWord (n + 1)
  z := Config.freeWord (n + 2)
  w := Config.freeWord (n + 3)

/-- The block right after power-on reset (R18, R79), with nothing at its port. -/
def State.reset : State where
  gen := freeGen 0
  bitBuf := 0x00000000#32
  bitMask := 0x00000000#32
  seeded := false
  err := false
  inbox := []
  outbox := []
  params := Config.params
  freeCtr := 4

end Sys2Proof.Machine
end

