-- ==== Sys2Proof/Machine/Flags.lean ====
section
/-! DEFINITION. The status flags SEEDED and ERR (spec/10_state.md R11, R12), the 2-bit STATUS they make up, and the
packing of a response (spec/30_encoding.md R35). -/

namespace Sys2Proof.Machine

/-- STATUS = {ERR, SEEDED}: bit 0 is SEEDED and bit 1 is ERR (R11, R12, R35). -/
def statusBits (err seeded : Bool) : BitVec 2 := BitVec.ofBool err ++ BitVec.ofBool seeded

/-- STATUS as it stands in the state. -/
def State.status (s : State) : BitVec 2 := statusBits s.err s.seeded

/-- SEEDED <- 1 (R42). -/
def State.setSeeded (s : State) : State := { s with seeded := true }

/-- ERR <- 1 (R70). -/
def State.setErr (s : State) : State := { s with err := true }

/-- The value of CODE on the wire (R35). -/
def Code.bits : Code → BitVec 2
  | .ok => 0#2
  | .illegalOp => 1#2
  | .notSeeded => 2#2

/-- The response as one 68-bit word, `{RESULT[63:0], STATUS[1:0], CODE[1:0]}` (R35). -/
def Response.pack (r : Response) : BitVec 68 := r.result ++ r.status ++ r.code.bits

/-- How a requester reads CODE; value 3 is reserved, and a model that receives it must refuse it
(R37, spec/93_implementation_defined.md I3). -/
def Code.ofBits (b : BitVec 2) : Option Code :=
  if b = 0#2 then some .ok
  else if b = 1#2 then some .illegalOp
  else if b = 2#2 then some .notSeeded
  else none

/-- How a requester reads a 68-bit response word. -/
def Response.unpack (v : BitVec 68) : Option Response :=
  match Code.ofBits (v.extractLsb' 0 2) with
  | some c => some { code := c, status := v.extractLsb' 2 2, result := v.extractLsb' 4 64 }
  | none => none

end Sys2Proof.Machine
end

