-- ==== Sys2Proof/Machine/Operands.lean ====
section
/-! DEFINITION. Operand and result forms: the seed argument (spec/30_encoding.md R33), the placing of results in
RESULT (R36), and how a requester reads a pattern as signed (spec/00_scope.md R6, R8). -/

namespace Sys2Proof.Machine

/-- `zext_64(v)` of a 32-bit value (R6, R36). -/
def zext64 (v : Word) : Long := v.setWidth 64

/-- `{hi, lo}` of two words: the first is the high half (R6, R56). -/
def concat64 (hi lo : Word) : Long := hi ++ lo

/-- `v & 0x7FFFFFFF`, the low 31 bits of a word (R53). -/
def low31 (v : Word) : Word := v &&& 0x7FFFFFFF#32

/-- The sentinel 2^31 - 1, which NEXT never returns (R9, R54). -/
def sentinel : Word := 0x7FFFFFFF#32

/-- `s32(v)`: a 32-bit pattern read as a two's-complement integer (R6). -/
def s32 (v : Word) : Int := v.toInt

/-- `s64(v)`: a 64-bit pattern read as a two's-complement integer (R6). -/
def s64 (v : Long) : Int := v.toInt

/-- `ARG = seed mod 2^32`: the argument the requester forms from its seed (R33). -/
def seedArg (v : Int) : Word := BitVec.ofInt 32 v

/-- The RESULT of a BOOL whose cached bit is `b` (R61, R64): `b` where a 1 bit means true, else `1 - b`. -/
def boolResult (oneIsTrue b : Bool) : Long := if oneIsTrue = b then 1#64 else 0#64

end Sys2Proof.Machine
end

