-- ==== Sys2Proof/Machine/Ops.lean ====
section
/-! DEFINITION. The shared operations: the step XS_STEP and its inverse (spec/41_word_generator.md), `advance()`,
`respond` and `raise Error` (spec/00_scope.md R7), the draw guard (spec/60_exceptions.md R68), the retry loop of NEXT,
the lazy refill of the bit cache, and reset. -/

namespace Sys2Proof.Machine

/-- What one step of the machine answers. -/
abbrev Result := Host.Outcome State Fault Refusal

/-! ## Register updates -/

/-- (X, Y, Z, W) <- g. -/
def State.setGen (s : State) (g : Gen) : State := { s with gen := g }

/-- BITBUF <- buf and BITMASK <- mask. -/
def State.setCache (s : State) (buf mask : Word) : State := { s with bitBuf := buf, bitMask := mask }

/-- What is still to come at the command port. -/
def State.setInbox (s : State) (es : List PortEvent) : State := { s with inbox := es }

/-- Sends one response. -/
def State.send (s : State) (r : Response) : State := { s with outbox := s.outbox ++ [r] }

/-! ## The word generator -/

/-- `t <- x ^ (x << 11)` of XS_STEP (R46). -/
def xsMix (x : Word) : Word := x ^^^ (x <<< 11)

/-- The new word of XS_STEP (R46), from x and w alone. -/
def xsWord (x w : Word) : Word := (w ^^^ (w >>> 19)) ^^^ (xsMix x ^^^ (xsMix x >>> 8))

/-- XS_STEP's state map (R46): y, z and w move down one place and the new word becomes W. The word it returns is the
new W. -/
def Gen.next (g : Gen) : Gen where
  x := g.y
  y := g.z
  z := g.w
  w := xsWord g.x g.w

/-- XS_STEP_INV (R50): the state before the step. No command takes it. -/
def Gen.prev (g : Gen) : Gen :=
  let u := g.w ^^^ g.z ^^^ (g.z >>> 19)
  let t := u ^^^ (u >>> 8) ^^^ (u >>> 16) ^^^ (u >>> 24)
  { x := t ^^^ (t <<< 11) ^^^ (t <<< 22), y := g.x, z := g.y, w := g.z }

/-- `n` steps of the generator. -/
def Gen.iter : Nat → Gen → Gen
  | 0, g => g
  | n + 1, g => Gen.iter n g.next

/-- `advance()` (R47): one step of the block's state; the word is the new W. -/
def State.advance (s : State) : State := s.setGen s.gen.next

/-- The word the last `advance()` returned, which is the register W (R9, R46). -/
def State.lastWord (s : State) : Word := s.gen.w

/-! ## Responses and errors -/

/-- `respond(code, result)` (R7, R35): ends the command. STATUS is what stands after the command's writes. -/
def respond (code : Code) (result : Long) (s : State) : Result :=
  .next (s.send { code := code, status := s.status, result := result })

/-- `raise Error(code)` (R70): ERR <- 1, everything else as it was, and a response with RESULT 0. This is how the block
takes an error; there is no return from one (R72). -/
def raiseError (code : Code) (s : State) : Result := respond code 0#64 s.setErr

/-- The draw guard (R68): a draw while SEEDED = 0 fails with NOT_SEEDED before its first write. -/
def whenSeeded (s : State) (body : Result) : Result :=
  if s.seeded then body else raiseError .notSeeded s

/-- `ILLEGAL(op)` (R67): a command whose OP is reserved. The response carries no copy of the OP. -/
def illegalCommand (_op : Opcode) (s : State) : Result := raiseError .illegalOp s

/-! ## Draws -/

/-- The retry loop of NEXT (R54): step until the low 31 bits are not the sentinel, with a bound on the steps. Answers
the state after all steps taken and the value, or none when the bound is reached. -/
def nextLoop : Nat → Gen → Option (Gen × Word)
  | 0, _ => none
  | fuel + 1, g =>
    if low31 g.next.w = sentinel then nextLoop fuel g.next else some (g.next, low31 g.next.w)

/-- The bound of NEXT's loop: "NEXT ends after at most 5 steps from every state" (R55). -/
def nextFuel : Nat := 5

/-- The two-step draw that U64 and I64 share (R56, R57): the first word is the high half. -/
def drawLong (s : State) : Result :=
  respond .ok (concat64 s.advance.lastWord s.advance.advance.lastWord) s.advance.advance

/-! ## The bit cache -/

/-- The mask of a freshly filled cache: "mask reset to the top bit" (R61). -/
def topMask : Word := 0x80000000#32

/-- The lazy refill of BOOL (R60, R61): only when the cache is empty, one step. -/
def State.refill (s : State) : State :=
  if s.bitMask = 0#32 then s.advance.setCache s.advance.lastWord topMask else s

/-- The bit of BITBUF that BITMASK marks (R14, R61). -/
def State.cachedBit (s : State) : Bool := (s.bitBuf &&& s.bitMask) != 0#32

/-- BITMASK <- BITMASK >> 1 (R61). -/
def State.shiftMask (s : State) : State := s.setCache s.bitBuf (s.bitMask >>> 1)

/-! ## Reset and the command port -/

/-- Reset (R79): the registers take the values of R18, X, Y, Z and W fresh free words; no response is sent. What is
still to come, what was sent and the parameters are the outside world's and stay (log entry 8). -/
def State.applyReset (s : State) : State :=
  { s with
    gen := freeGen s.freeCtr
    bitBuf := 0x00000000#32
    bitMask := 0x00000000#32
    seeded := false
    err := false
    freeCtr := s.freeCtr + 4 }

/-- The event the block meets next, and the state with that event taken off the port (R27). -/
def State.takeEvent (s : State) : Option (PortEvent × State) :=
  match s.inbox with
  | [] => none
  | e :: rest => some (e, s.setInbox rest)

/-- The state in which `w` is the command the block accepts next. -/
def State.offerCommand (s : State) (w : Command) : State := s.setInbox (.command w :: s.inbox)

end Sys2Proof.Machine
end

