-- ==== Sys2Proof/Machine/BitCache.lean ====
section
/-! DEFINITION. The bit cache's command: BOOL (spec/43_bit_cache.md R60 to R64). -/

namespace Sys2Proof.Machine

/-- BOOL (R61): refill when the cache is empty, hand out the marked bit under the polarity parameter (R64), and shift
the mask right by one. -/
def execBool (s : State) : Result :=
  whenSeeded s
    (respond .ok (boolResult s.params.boolOneIsTrue s.refill.cachedBit) s.refill.shiftMask)

end Sys2Proof.Machine
end

