-- ==== Sys2Proof/Machine/Construction.lean ====
section
/-! DEFINITION. Construction: SEED (spec/40_construction.md R42). -/

namespace Sys2Proof.Machine

/-- The state `SEED v` constructs from the block's parameters (R42). -/
def seededGen (p : Params) (v : Word) : Gen where
  x := v
  y := p.y0
  z := p.z0
  w := p.w0

/-- SEED v (R42): the generator afresh, the cache emptied, SEEDED <- 1, ERR as it was. Legal in every state. -/
def execSeed (v : Word) (s : State) : Result :=
  respond .ok 0x0000000000000000#64
    (((s.setGen (seededGen s.params v)).setCache 0x00000000#32 0x00000000#32).setSeeded)

end Sys2Proof.Machine
end

