-- ==== Sys2Proof/Machine/ScalarWords.lean ====
section
/-! DEFINITION. Scalar word draws: NEXT31, NEXT, U64 and I64 (spec/42_scalar_words.md R53 to R57). -/

namespace Sys2Proof.Machine

/-- NEXT31 (R53): one step, and the word's low 31 bits; the sentinel is returned like any other value. -/
def execNext31 (s : State) : Result :=
  whenSeeded s (respond .ok (zext64 (low31 s.advance.lastWord)) s.advance)

/-- NEXT (R54): as many steps as it takes to get a value that is not the sentinel, at most five (R55). Should the bound
be reached, no value is returned: the machine faults. -/
def execNext (s : State) : Result :=
  whenSeeded s
    (match nextLoop nextFuel s.gen with
      | some (g, v) => respond .ok (zext64 v) (s.setGen g)
      | none => .fault .nextRetryBound)

/-- U64 (R56): two steps in one command, {first word, second word}. -/
def execU64 (s : State) : Result := whenSeeded s (drawLong s)

/-- I64 (R57): the same two steps and the same 64 bits as U64. -/
def execI64 (s : State) : Result := whenSeeded s (drawLong s)

end Sys2Proof.Machine
end

