-- ==== Sys2Proof/Machine/WordGenerator.lean ====
section
/-! DEFINITION. The word generator's command: WORD (spec/41_word_generator.md R48). -/

namespace Sys2Proof.Machine

/-- WORD (R48): one step, and the raw word zero-extended. -/
def execWord (s : State) : Result :=
  whenSeeded s (respond .ok (zext64 s.advance.lastWord) s.advance)

end Sys2Proof.Machine
end

