-- ==== Sys2Proof/Machine/Dispatch.lean ====
section
/-! DEFINITION. One arm per command of spec/opcode_table.json, each one call of its meaning. -/

namespace Sys2Proof.Machine

def exec (i : Instr) (s : State) : Host.Outcome State Fault Refusal :=
  match i with
  | .seed v => Sys2Proof.Machine.execSeed v s
  | .word => Sys2Proof.Machine.execWord s
  | .next31 => Sys2Proof.Machine.execNext31 s
  | .next => Sys2Proof.Machine.execNext s
  | .bool => Sys2Proof.Machine.execBool s
  | .u64 => Sys2Proof.Machine.execU64 s
  | .i64 => Sys2Proof.Machine.execI64 s

end Sys2Proof.Machine
end

