-- ==== Sys2Proof/Machine/Step.lean ====
section
/-! DEFINITION. One step of the block: the next event at its port is met whole (spec/20_memory.md R25, R27). -/

namespace Sys2Proof.Machine

/-- One command (R38): the decoded instruction runs; a reserved OP is the illegal command (R67), whether seeded or not
(R69: decode comes first). -/
def runCommand (w : Command) (s : State) : Result :=
  match decode w with
  | .ok i => exec i s
  | .error (.illegalOp op) => illegalCommand op s

/-- One step. With nothing at the port the block waits and keeps all its state (R77, R88; log entry 6). A reset that
arrives during a command leaves what reset leaves, and no response (R80). -/
def step (s : State) : Host.Outcome State Fault Refusal :=
  match s.takeEvent with
  | none => .next s
  | some (.command w, t) => runCommand w t
  | some (.reset, t) => .next t.applyReset
  | some (.resetDuring _, t) => .next t.applyReset

/-- The state in which opcode-table word `w` is the command the next step accepts (log entry 4). -/
def State.withFetchWord (s : State) (nbits w : Nat) : State := s.offerCommand (tableCommand nbits w)

end Sys2Proof.Machine
end

