-- ==== Sys2Proof/Machine/Assembler.lean ====
section
/-! DEFINITION. The requester's assembler (spec/30_encoding.md R39, R40): what a source command assembles to, and how
a line of text is read. It is no part of the block. -/

namespace Sys2Proof.Machine

/-- Why a line is refused. -/
inductive AsmError where
  | unknownMnemonic
  | missingOperand
  | unexpectedOperand
  | badLiteral
  | outOfRange
  deriving DecidableEq, Repr

/-- How many words a stream of `n` bytes takes: `ceil(n / 4)` (R22, R40). -/
def wordsForBytes (n : Nat) : Nat := (n + 3) / 4

/-- The commands a source command stands for: aliases by the table of R39, pseudo-commands by R40. -/
def expand : SourceCmd → List Instr
  | .seed v => [.seed (seedArg v)]
  | .word => [.word]
  | .next31 => [.next31]
  | .next => [.next]
  | .bool => [.bool]
  | .u64 => [.u64]
  | .i64 => [.i64]
  | .advance => [.word]
  | .nextWord => [.word]
  | .nextUInt => [.word]
  | .nextULong => [.u64]
  | .nextLong => [.i64]
  | .nextBool => [.bool]
  | .skip n => List.replicate n .word
  | .bytes n => List.replicate (wordsForBytes n) .word

/-- The command words of a source command; a seed outside the range of R39 is refused. -/
def assemble (c : SourceCmd) : Except AsmError (List Command) :=
  if c.wf then .ok ((expand c).map encode) else .error .outOfRange

/-- `;` starts a comment (R39). -/
def stripComment : List Char → List Char
  | [] => []
  | c :: cs => if c = ';' then [] else c :: stripComment cs

/-- The words of a line, separated by spaces, tabs and carriage returns (log entry 12). -/
def tokens : List Char → List (List Char)
  | [] => []
  | c :: cs =>
    if c = ' ' ∨ c = '\t' ∨ c = '\r' then [] :: tokens cs
    else
      match tokens cs with
      | [] => [[c]]
      | t :: ts => (c :: t) :: ts

/-- The non-empty words of a line. -/
def lineWords (l : List Char) : List (List Char) := (tokens (stripComment l)).filter (fun t => !t.isEmpty)

/-- The value of a digit in the given base (log entry 12: hexadecimal digits in either case). -/
def digitValue (base : Nat) (c : Char) : Option Nat :=
  let n := c.toNat
  let d :=
    if 48 ≤ n ∧ n ≤ 57 then n - 48
    else if 65 ≤ n ∧ n ≤ 70 then n - 55
    else if 97 ≤ n ∧ n ≤ 102 then n - 87
    else base
  if d < base then some d else none

/-- The value of a run of digits, starting from `acc`. -/
def digitsValue (base : Nat) : Nat → List Char → Option Nat
  | acc, [] => some acc
  | acc, c :: cs =>
    match digitValue base c with
    | some d => digitsValue base (base * acc + d) cs
    | none => none

/-- A literal: a decimal integer, or `0x` followed by one to eight hexadecimal digits (R39; log entry 12). -/
def parseLiteral (l : List Char) : Option Int :=
  match l with
  | [] => none
  | '0' :: 'x' :: ds =>
    if ds.isEmpty || decide (8 < ds.length) then none else (digitsValue 16 0 ds).map Int.ofNat
  | '-' :: ds => if ds.isEmpty then none else (digitsValue 10 0 ds).map (fun n => -(Int.ofNat n))
  | ds => (digitsValue 10 0 ds).map Int.ofNat

/-- The mnemonics and aliases without an operand (R34, R39). -/
def plainMnemonics : List (List Char × SourceCmd) :=
  [ (['W', 'O', 'R', 'D'], .word),
    (['N', 'E', 'X', 'T', '3', '1'], .next31),
    (['N', 'E', 'X', 'T'], .next),
    (['B', 'O', 'O', 'L'], .bool),
    (['U', '6', '4'], .u64),
    (['I', '6', '4'], .i64),
    (['A', 'D', 'V', 'A', 'N', 'C', 'E'], .advance),
    (['N', 'E', 'X', 'T', 'W', 'O', 'R', 'D'], .nextWord),
    (['N', 'E', 'X', 'T', 'U', 'I', 'N', 'T'], .nextUInt),
    (['N', 'E', 'X', 'T', 'U', 'L', 'O', 'N', 'G'], .nextULong),
    (['N', 'E', 'X', 'T', 'L', 'O', 'N', 'G'], .nextLong),
    (['N', 'E', 'X', 'T', 'B', 'O', 'O', 'L'], .nextBool) ]

/-- A count of a pseudo-command: n ≥ 0 (R40). -/
def parseCount (operand : List Char) : Except AsmError Nat :=
  match parseLiteral operand with
  | none => .error .badLiteral
  | some v => if v < 0 then .error .outOfRange else .ok v.toNat

/-- The source command with one operand (R39, R40), its mnemonic in capitals. -/
def parseOperandCmd (mnemonic operand : List Char) : Except AsmError SourceCmd :=
  if mnemonic = ['S', 'E', 'E', 'D'] then
    match parseLiteral operand with
    | none => .error .badLiteral
    | some v => .ok (.seed v)
  else if mnemonic = ['S', 'K', 'I', 'P'] then (parseCount operand).map .skip
  else if mnemonic = ['B', 'Y', 'T', 'E', 'S'] then (parseCount operand).map .bytes
  else
    match plainMnemonics.lookup mnemonic with
    | some _ => .error .unexpectedOperand
    | none => .error .unknownMnemonic

/-- The source command without an operand, its mnemonic in capitals. -/
def parsePlainCmd (mnemonic : List Char) : Except AsmError SourceCmd :=
  match plainMnemonics.lookup mnemonic with
  | some c => .ok c
  | none =>
    if mnemonic = ['S', 'E', 'E', 'D'] ∨ mnemonic = ['S', 'K', 'I', 'P'] ∨ mnemonic = ['B', 'Y', 'T', 'E', 'S'] then
      .error .missingOperand
    else .error .unknownMnemonic

/-- One line of source (R39): at most one command, its mnemonic in capitals or small letters; a blank line or a line
of comment is no command. -/
def parseLine (l : List Char) : Except AsmError (Option SourceCmd) :=
  match lineWords l with
  | [] => .ok none
  | [m] => (parsePlainCmd (m.map Char.toUpper)).map some
  | [m, operand] => (parseOperandCmd (m.map Char.toUpper) operand).map some
  | _ => .error .unexpectedOperand

/-- The command words of one line of source. -/
def assembleLine (l : List Char) : Except AsmError (List Command) :=
  match parseLine l with
  | .error e => .error e
  | .ok none => .ok []
  | .ok (some c) => assemble c

/-- The command words of a program, one command a line; the first line that is refused refuses the program. -/
def assembleLines : List (List Char) → Except AsmError (List Command)
  | [] => .ok []
  | l :: ls =>
    match assembleLine l with
    | .error e => .error e
    | .ok ws => (assembleLines ls).map (ws ++ ·)

end Sys2Proof.Machine
end

