-- ==== Sys2Proof/Machine/Serialize.lean ====
section
/-! DEFINITION. How a requester writes the block's words as bytes (spec/20_memory.md R21, R22, R23). The block itself
serializes nothing. -/

namespace Sys2Proof.Machine

/-- The four bytes of a word, little-endian, offset 0 first (R21). -/
def bytesOfWord (v : Word) : List Byte :=
  [v.extractLsb' 0 8, v.extractLsb' 8 8, v.extractLsb' 16 8, v.extractLsb' 24 8]

/-- The eight bytes of a 64-bit result, little-endian, offset 0 first (R23). -/
def bytesOfLong (v : Long) : List Byte :=
  [v.extractLsb' 0 8, v.extractLsb' 8 8, v.extractLsb' 16 8, v.extractLsb' 24 8,
    v.extractLsb' 32 8, v.extractLsb' 40 8, v.extractLsb' 48 8, v.extractLsb' 56 8]

/-- The bytes of the next `n` whole words, and the generator after them. -/
def drawWordBytes : Nat → Gen → List Byte × Gen
  | 0, g => ([], g)
  | n + 1, g =>
    let rest := drawWordBytes n g.next
    (bytesOfWord g.next.w ++ rest.1, rest.2)

/-- `bytes(n)` (R22): `floor(n / 4)` whole words, then the low bytes of one more word where n is no multiple of 4. -/
def drawBytes (n : Nat) (g : Gen) : List Byte × Gen :=
  let whole := drawWordBytes (n / 4) g
  if n % 4 = 0 then whole
  else (whole.1 ++ (bytesOfWord whole.2.next.w).take (n % 4), whole.2.next)

/-- The `n`-byte stream a requester builds from the RESULTs of `WORD` commands (R22, R40). -/
def streamOfResults (n : Nat) (results : List Long) : List Byte :=
  (results.flatMap (fun r => bytesOfWord (r.setWidth 32))).take n

end Sys2Proof.Machine
end

