-- ==== Sys2Proof/Safety.lean ====
section
/-! DEFINITION. The terms claims are made in: runs of the block (spec/70_reset_and_hazards.md R88), what a requester
may read (spec/10_state.md R15), the invariants of R5, R16 and R17, and a run without an error (R72). -/

namespace Sys2Proof.Machine

/-- The state an outcome answers, where it answers one. -/
def stateOf : Result → Option State
  | .next s => some s
  | .fault _ => none
  | .refused _ => none

/-- `k` steps; a fault or a refusal ends the run. -/
def runFor : Nat → State → Result
  | 0, s => .next s
  | k + 1, s =>
    match step s with
    | .next t => runFor k t
    | .fault f => .fault f
    | .refused r => .refused r

/-- The run in which the block meets exactly the events `es`, in that order (R27, R88). -/
def runEvents (es : List PortEvent) (s : State) : Result := runFor es.length (s.setInbox es)

/-- The run of a sequence of command words (R88). -/
def runCommands (ws : List Command) (s : State) : Result := runEvents (ws.map .command) s

/-- The run of a sequence of commands, each encoded with ARG 0 where it is ignored. -/
def runInstrs (is : List Instr) (s : State) : Result := runCommands (is.map encode) s

/-- The state in which the next event is the command word `w` and `rest` comes after it. -/
def State.accepting (s : State) (w : Command) (rest : List PortEvent) : State :=
  s.setInbox (.command w :: rest)

/-- All that a requester may read of the block (R15): its responses. -/
def State.visible (s : State) : List Response := s.outbox

/-- The response a requester reads last. -/
def State.lastResponse (s : State) : Option Response := s.outbox.getLast?

/-- "the 128-bit state is not all zero" (R16). -/
def Gen.nonZero (g : Gen) : Prop := ¬(g.x = 0#32 ∧ g.y = 0#32 ∧ g.z = 0#32 ∧ g.w = 0#32)

/-- BITMASK is zero or exactly one 1 bit (R14, R17). -/
def maskLegal (m : Word) : Prop := m = 0#32 ∨ ∃ i, i < 32 ∧ m = BitVec.twoPow 32 i

/-- The invariants of R5, R16 and R17: the constants are non-zero, a seeded generator is not all zero, and the mask is
zero or one-hot. -/
structure State.Inv (s : State) : Prop where
  params : s.params.wf = true
  gen : s.seeded = true → s.gen.nonZero
  mask : maskLegal s.bitMask

/-- Every response from position `n` of the port's record on is an OK response. -/
def State.allOkFrom (s : State) (n : Nat) : Prop := ∀ r ∈ s.outbox.drop n, r.code = .ok

end Sys2Proof.Machine
end

