-- ==== Sys2Proof/Certificates/Slice0/Obligations.lean ====
section
/-! DEFINITION. The statements for the provers. Each is about every state, reached or not, unless it says otherwise.
`s.accepting w rest` is the state `s` in which the command word `w` is the next event at the port. -/

open Sys2Proof Sys2Proof.Machine

/-! ## Encoding -/

/-- 30_encoding.md R32: a command is `{ARG, OP}`; as a number, 16 * ARG + OP. -/
def Obligations.CommandWordIsArgThenOp : Prop :=
  (∀ (a : Word) (op : Opcode), (mkCommand a op).toNat = 16 * a.toNat + op.toNat ∧
    cmdArg (mkCommand a op) = a ∧ cmdOp (mkCommand a op) = op) ∧
  (∀ w : Command, mkCommand (cmdArg w) (cmdOp w) = w)

/-- 30_encoding.md R38: every word decodes, by its OP. -/
def Obligations.EveryCommandWordDecodesByItsOp : Prop :=
  ∀ w : Command,
    (cmdOp w = 0x1#4 → decode w = .ok (.seed (cmdArg w))) ∧
    (cmdOp w = 0x2#4 → decode w = .ok .word) ∧
    (cmdOp w = 0x3#4 → decode w = .ok .next31) ∧
    (cmdOp w = 0x4#4 → decode w = .ok .next) ∧
    (cmdOp w = 0x5#4 → decode w = .ok .bool) ∧
    (cmdOp w = 0x6#4 → decode w = .ok .u64) ∧
    (cmdOp w = 0x7#4 → decode w = .ok .i64) ∧
    (cmdOp w = 0x0#4 ∨ 0x8#4 ≤ cmdOp w → decode w = .error (.illegalOp (cmdOp w)))

/-- Decode and encode agree for every instruction, at every operand and every value of an ignored ARG, and every word
that decodes to an instruction is one of that instruction's words (R32, R33, R34, R38). -/
def Obligations.DecodeAndEncodeAgree : Prop :=
  (∀ (i : Instr) (a : Word), decode (encodeWith a i) = .ok i) ∧
  (∀ (i : Instr) (w : Command), decode w = .ok i → encodeWith (cmdArg w) i = w)

/-- Words written out from the spec: nine from 95_test_vectors.md (`SEED 42`, `SEED -1`, V-DEC-1 to V-DEC-3, L3-1 to
L3-3), and the I64 word from its OP in 30_encoding.md R34 with ARG 0. -/
def Obligations.WrittenOutWordsDecode : Prop :=
  decode 0x0000002A1#36 = .ok (.seed 42#32) ∧
  decode 0xFFFFFFFF1#36 = .ok (.seed 0xFFFFFFFF#32) ∧
  decode 0x123456782#36 = .ok .word ∧
  decode 0x000000003#36 = .ok .next31 ∧
  decode 0x000000004#36 = .ok .next ∧
  decode 0x000000005#36 = .ok .bool ∧
  decode 0x000000006#36 = .ok .u64 ∧
  decode 0x000000007#36 = .ok .i64 ∧
  decode 0x000000000#36 = .error (.illegalOp 0x0#4) ∧
  decode 0x00000000F#36 = .error (.illegalOp 0xF#4)

/-- 30_encoding.md R35, R37: the fields of the 68-bit response word, the requester's reading of it, and CODE 3, which
no response has and a requester refuses. -/
def Obligations.ResponseWordRoundTrips : Prop :=
  (∀ r : Response,
    (r.pack.extractLsb' 0 2) = r.code.bits ∧ (r.pack.extractLsb' 2 2) = r.status ∧
    (r.pack.extractLsb' 4 64) = r.result ∧ r.code.bits ≠ 3#2 ∧ Response.unpack r.pack = some r) ∧
  (∀ v : BitVec 68, v.extractLsb' 0 2 = 3#2 → Response.unpack v = none) ∧
  (∀ (v : BitVec 68) (r : Response), Response.unpack v = some r → r.pack = v)

/-! ## The step of the machine -/

/-- A step runs the decoded instruction on the state with the command taken off the port (R27, R38). -/
def Obligations.StepRunsTheDecodedCommand : Prop :=
  ∀ (s : State) (w : Command) (rest : List PortEvent) (i : Instr), decode w = .ok i →
    step (s.accepting w rest) = exec i (s.setInbox rest)

/-- The opcode-table word placed at the port is what the next step runs (log entry 4). -/
def Obligations.PlacedTableWordRunsNext : Prop :=
  ∀ (s : State) (w : Nat) (i : Instr), decodeTableWord 36 w = some i → step (s.withFetchWord 36 w) = exec i s

/-- 60_exceptions.md R67: a reserved OP fails with ILLEGAL_OP, seeded or not, whatever its ARG: ERR is set, the response
has RESULT 0, and nothing else changes. -/
def Obligations.ReservedOpFailsWithIllegalOp : Prop :=
  ∀ (s : State) (a : Word) (op : Opcode) (rest : List PortEvent), op = 0x0#4 ∨ 0x8#4 ≤ op →
    step (s.accepting (mkCommand a op) rest) =
      .next { s with
        inbox := rest
        err := true
        outbox := s.outbox ++ [{ code := .illegalOp, status := statusBits true s.seeded, result := 0#64 }] }

/-- With nothing at its port the block waits and keeps all its state (R77, R88; the step is the model's choice, log
entry 6). -/
def Obligations.WaitingKeepsAllState : Prop :=
  ∀ s : State, s.inbox = [] → step s = .next s

/-- Running one list of events and then another is running both together, so each command sees exactly the state the
one before it left (20_memory.md R27, R25). That the list is the acceptance order is log entry 4; for lists that hold a
reset, that the events after it are still to come is the model's choice, log entry 8. -/
def Obligations.RunsComposeInAcceptanceOrder : Prop :=
  ∀ (es fs : List PortEvent) (s t : State), runEvents es s = .next t → runEvents (es ++ fs) s = runEvents fs t

/-- No step stops: in every state the machine answers a next state (30_encoding.md R38, 42_scalar_words.md R55,
60_exceptions.md R70, 70_reset_and_hazards.md R88). It rests on the model's readings that the block keeps its state
while it waits (log entry 6), that NEXT has a fuel of five steps, whose end is never reached (log entry 9), and that
error responses are next states (log entry 13). -/
def Obligations.EveryStepAnswersANextState : Prop :=
  ∀ s : State, ∃ t, step s = .next t

/-- 30_encoding.md R35: the block answers every command with one response, whose STATUS is what stands after the
command, whose RESULT is 0 on an error, and whose word is {RESULT, STATUS, CODE}. -/
def Obligations.EveryCommandGetsOneResponse : Prop :=
  ∀ (s : State) (w : Command) (rest : List PortEvent), ∃ (t : State) (r : Response),
    step (s.accepting w rest) = .next t ∧ t.inbox = rest ∧ t.outbox = s.outbox ++ [r] ∧
    r.status = statusBits t.err t.seeded ∧ (r.code ≠ .ok → r.result = 0#64) ∧
    r.pack = r.result ++ r.status ++ r.code.bits ∧
    (r.code = .ok ∧ r.code.bits = 0#2 ∨ r.code = .illegalOp ∧ r.code.bits = 1#2 ∨
      r.code = .notSeeded ∧ r.code.bits = 2#2)

/-- A finite run of commands ends with the port empty and one response for each command, whatever the commands and
their order (R27, R28, R35, R88). -/
def Obligations.RunAnswersEveryCommand : Prop :=
  ∀ (ws : List Command) (s : State), ∃ t, runCommands ws s = .next t ∧ t.inbox = [] ∧
    t.outbox.length = s.outbox.length + ws.length ∧ t.outbox.take s.outbox.length = s.outbox

/-! ## Reset -/

/-- 70_reset_and_hazards.md R79 and 10_state.md R18: reset leaves the cache empty, SEEDED and ERR 0, X, Y, Z and W
unspecified, and sends no response. The unspecified words are uninterpreted constants; which of them a reset draws is
the model's form, log entry 3. -/
def Obligations.ResetPutsRegistersToResetValues : Prop :=
  (State.reset.bitBuf = 0#32 ∧ State.reset.bitMask = 0#32 ∧ State.reset.seeded = false ∧ State.reset.err = false ∧
    State.reset.gen =
      { x := Config.freeWord 0, y := Config.freeWord 1, z := Config.freeWord 2, w := Config.freeWord 3 }) ∧
  ∀ (s : State) (rest : List PortEvent), ∃ t, step (s.setInbox (.reset :: rest)) = .next t ∧
    t.bitBuf = 0#32 ∧ t.bitMask = 0#32 ∧ t.seeded = false ∧ t.err = false ∧
    t.gen =
      { x := Config.freeWord s.freeCtr, y := Config.freeWord (s.freeCtr + 1)
        z := Config.freeWord (s.freeCtr + 2), w := Config.freeWord (s.freeCtr + 3) } ∧
    t.outbox = s.outbox

/-- What a reset leaves of the model's own fields: the rest of the port, the parameters, and four more free words drawn.
This is the model's choice (log entries 3 and 8), no rule of the spec. -/
def Obligations.ResetKeepsPortAndParameters : Prop :=
  ∀ (s : State) (rest : List PortEvent) (t : State), step (s.setInbox (.reset :: rest)) = .next t →
    t.inbox = rest ∧ t.outbox = s.outbox ∧ t.params = s.params ∧ t.freeCtr = s.freeCtr + 4

/-- 70_reset_and_hazards.md R80: a reset during a command cancels it: no response, and the state is that of a reset
without the command. -/
def Obligations.ResetDuringACommandCancelsIt : Prop :=
  ∀ (s : State) (w : Command) (rest : List PortEvent), ∃ t,
    step (s.setInbox (.resetDuring w :: rest)) = .next t ∧
    step (s.setInbox (.reset :: rest)) = .next t ∧ t.outbox = s.outbox

/-! ## The word generator -/

/-- 41_word_generator.md R46: the step function. -/
def Obligations.StepFunctionIsTheRecurrence : Prop :=
  ∀ g : Gen, g.next =
    { x := g.y, y := g.z, z := g.w
      w := (g.w ^^^ (g.w >>> 19)) ^^^ ((g.x ^^^ (g.x <<< 11)) ^^^ ((g.x ^^^ (g.x <<< 11)) >>> 8)) }

/-- 41_word_generator.md R46, R49, bit by bit: the left shift drops bits past bit 31 and fills with 0, the right shifts
are logical. -/
def Obligations.NewWordBitByBit : Prop :=
  ∀ (g : Gen) (i : Nat), i < 32 →
    (g.next.w.getLsbD i =
      ((g.w.getLsbD i ^^ (decide (i + 19 < 32) && g.w.getLsbD (i + 19))) ^^
        ((g.x.getLsbD i ^^ (decide (11 ≤ i) && g.x.getLsbD (i - 11))) ^^
          (decide (i + 8 < 32) && (g.x.getLsbD (i + 8) ^^ (decide (11 ≤ i + 8) && g.x.getLsbD (i + 8 - 11)))))))

/-- 41_word_generator.md R50: the state map is a bijection with the stated inverse; the zero state maps to itself and no
non-zero state maps to zero. -/
def Obligations.StepMapIsABijection : Prop :=
  (∀ g : Gen, g.next.prev = g) ∧ (∀ g : Gen, g.prev.next = g) ∧
  (∀ g : Gen, g.prev =
    { x :=
        let u := g.w ^^^ g.z ^^^ (g.z >>> 19)
        let t := u ^^^ (u >>> 8) ^^^ (u >>> 16) ^^^ (u >>> 24)
        t ^^^ (t <<< 11) ^^^ (t <<< 22)
      y := g.x, z := g.y, w := g.z }) ∧
  (∀ g : Gen, g.next.nonZero ↔ g.nonZero)

/-- 41_word_generator.md R51: after four or more steps the state is the last four words, oldest first, so those four
words determine the start state; after one step the unshifted part remains. -/
def Obligations.StateIsTheLastFourWords : Prop :=
  (∀ (g : Gen) (k : Nat), 4 ≤ k → Gen.iter k g =
    { x := (Gen.iter (k - 3) g).w, y := (Gen.iter (k - 2) g).w
      z := (Gen.iter (k - 1) g).w, w := (Gen.iter k g).w }) ∧
  (∀ (g h : Gen) (k : Nat), 4 ≤ k →
    (∀ j, k - 3 ≤ j → j ≤ k → (Gen.iter j g).w = (Gen.iter j h).w) → g = h) ∧
  (∀ g : Gen, Gen.iter 1 g = { x := g.y, y := g.z, z := g.w, w := (Gen.iter 1 g).w })

/-! ## Results of the commands -/

/-- 40_construction.md R42: SEED constructs the generator afresh, in every state. -/
def Obligations.SeedConstructsTheGenerator : Prop :=
  ∀ (v : Word) (s : State),
    encode (.seed v) = v ++ 0x1#4 ∧ decode (encode (.seed v)) = .ok (.seed v) ∧
    exec (.seed v) s =
      .next { s with
        gen := { x := v, y := s.params.y0, z := s.params.z0, w := s.params.w0 }
        bitBuf := 0#32
        bitMask := 0#32
        seeded := true
        outbox := s.outbox ++ [{ code := .ok, status := statusBits s.err true, result := 0#64 }] }

/-- 40_construction.md R42 and 20_memory.md R25: a second SEED with the same value leaves the registers as the first
one left them, and sends one more response. -/
def Obligations.SecondEqualSeedChangesNoRegister : Prop :=
  ∀ (v : Word) (s t : State), exec (.seed v) s = .next t →
    exec (.seed v) t =
      .next { t with outbox := t.outbox ++ [{ code := .ok, status := statusBits t.err true, result := 0#64 }] }

/-- 41_word_generator.md R48: WORD takes one step and returns the new word; unseeded it fails. -/
def Obligations.WordReturnsTheNewWord : Prop :=
  (∀ a : Word, decode (mkCommand a 0x2#4) = .ok .word) ∧
  ∀ s : State,
    (s.seeded = true → exec .word s =
      .next { s with
        gen := s.gen.next
        outbox := s.outbox ++
          [{ code := .ok, status := statusBits s.err true, result := s.gen.next.w.setWidth 64 }] }) ∧
    (s.seeded = false → exec .word s =
      .next { s with
        err := true
        outbox := s.outbox ++ [{ code := .notSeeded, status := statusBits true false, result := 0#64 }] })

/-- 41_word_generator.md R48: N WORD commands return the next N words, in order (the source's bulk fill, R40). -/
def Obligations.ConsecutiveWordsAreTheBulkFill : Prop :=
  ∀ (n : Nat) (s : State), s.seeded = true → ∃ t, runInstrs (expand (.skip n)) s = .next t ∧
    t.gen = Gen.iter n s.gen ∧
    t.outbox = s.outbox ++ (List.range n).map (fun j =>
      { code := .ok, status := statusBits s.err true, result := (Gen.iter (j + 1) s.gen).w.setWidth 64 })

/-- 42_scalar_words.md R53: NEXT31 takes one step and returns the word's low 31 bits; unseeded it fails. -/
def Obligations.Next31ReturnsTheLow31Bits : Prop :=
  (∀ a : Word, decode (mkCommand a 0x3#4) = .ok .next31) ∧
  ∀ s : State,
    (s.seeded = true → exec .next31 s =
      .next { s with
        gen := s.gen.next
        outbox := s.outbox ++
          [{ code := .ok, status := statusBits s.err true,
             result := (s.gen.next.w &&& 0x7FFFFFFF#32).setWidth 64 }] }) ∧
    (s.seeded = false → exec .next31 s =
      .next { s with
        err := true
        outbox := s.outbox ++ [{ code := .notSeeded, status := statusBits true false, result := 0#64 }] })

/-- 42_scalar_words.md R53: bit 31 of the word is lost: in every seeded state NEXT31 answers OK with the new word modulo
2^31, and in two seeded states whose new words differ in bit 31 alone it answers the same RESULT. -/
def Obligations.Next31DoesNotSeeBit31 : Prop :=
  (∀ s : State, s.seeded = true → ∃ t r, exec .next31 s = .next t ∧ t.outbox = s.outbox ++ [r] ∧ r.code = .ok ∧
    r.result.toNat = s.gen.next.w.toNat % 2 ^ 31) ∧
  (∀ s₁ s₂ : State, s₁.seeded = true → s₂.seeded = true → s₂.gen.next.w = s₁.gen.next.w ^^^ 0x80000000#32 →
    ∃ t₁ t₂ r₁ r₂, exec .next31 s₁ = .next t₁ ∧ exec .next31 s₂ = .next t₂ ∧
      t₁.outbox = s₁.outbox ++ [r₁] ∧ t₂.outbox = s₂.outbox ++ [r₂] ∧ r₁.result = r₂.result)

/-- 42_scalar_words.md R54: NEXT takes one step more than there are sentinel words to discard, at most four, and returns
the first value that is not the sentinel; unseeded it fails. It completes in every seeded state. -/
def Obligations.NextReturnsTheFirstNonSentinel : Prop :=
  (∀ a : Word, decode (mkCommand a 0x4#4) = .ok .next) ∧
  ∀ s : State,
    (s.seeded = true → ∃ k, k ≤ 4 ∧
      (∀ j, 1 ≤ j → j ≤ k → (Gen.iter j s.gen).w &&& 0x7FFFFFFF#32 = 0x7FFFFFFF#32) ∧
      (Gen.iter (k + 1) s.gen).w &&& 0x7FFFFFFF#32 ≠ 0x7FFFFFFF#32 ∧
      exec .next s =
        .next { s with
          gen := Gen.iter (k + 1) s.gen
          outbox := s.outbox ++
            [{ code := .ok, status := statusBits s.err true,
               result := ((Gen.iter (k + 1) s.gen).w &&& 0x7FFFFFFF#32).setWidth 64 }] }) ∧
    (s.seeded = false → exec .next s =
      .next { s with
        err := true
        outbox := s.outbox ++ [{ code := .notSeeded, status := statusBits true false, result := 0#64 }] })

/-- 42_scalar_words.md R55: from every state one of the next five words does not mask to the sentinel, and from some
state the first four all do. -/
def Obligations.NoSentinelRunIsLongerThanFour : Prop :=
  (∀ g : Gen, ∃ j, 1 ≤ j ∧ j ≤ 5 ∧ (Gen.iter j g).w &&& 0x7FFFFFFF#32 ≠ 0x7FFFFFFF#32) ∧
  (∃ g : Gen, ∀ j, 1 ≤ j → j ≤ 4 → (Gen.iter j g).w &&& 0x7FFFFFFF#32 = 0x7FFFFFFF#32)

/-- 42_scalar_words.md R54 (the source's "Sentinel exclusion"): a value NEXT returns lies in 0 .. 0x7FFFFFFE. -/
def Obligations.NextNeverReturnsTheSentinel : Prop :=
  ∀ s t : State, s.seeded = true → exec .next s = .next t →
    ∃ r, t.outbox = s.outbox ++ [r] ∧ r.code = .ok ∧ r.result.toNat ≤ 0x7FFFFFFE

/-- 42_scalar_words.md R56: U64 takes two steps and returns the two words, the first one high; unseeded it fails. -/
def Obligations.U64ReturnsTwoWordsFirstHigh : Prop :=
  (∀ a : Word, decode (mkCommand a 0x6#4) = .ok .u64) ∧
  ∀ s : State,
    (s.seeded = true → exec .u64 s =
      .next { s with
        gen := s.gen.next.next
        outbox := s.outbox ++
          [{ code := .ok, status := statusBits s.err true, result := s.gen.next.w ++ s.gen.next.next.w }] }) ∧
    (s.seeded = false → exec .u64 s =
      .next { s with
        err := true
        outbox := s.outbox ++ [{ code := .notSeeded, status := statusBits true false, result := 0#64 }] })

/-- 42_scalar_words.md R57: I64 computes what U64 computes, and its result is negative exactly when bit 31 of the first
word is 1. -/
def Obligations.I64ReturnsTheBitsOfU64 : Prop :=
  (∀ a : Word, decode (mkCommand a 0x7#4) = .ok .i64) ∧
  ∀ s : State,
    (s.seeded = true → exec .i64 s =
      .next { s with
        gen := s.gen.next.next
        outbox := s.outbox ++
          [{ code := .ok, status := statusBits s.err true, result := s.gen.next.w ++ s.gen.next.next.w }] }) ∧
    (s.seeded = false → exec .i64 s =
      .next { s with
        err := true
        outbox := s.outbox ++ [{ code := .notSeeded, status := statusBits true false, result := 0#64 }] }) ∧
    exec .i64 s = exec .u64 s ∧
    (s64 (s.gen.next.w ++ s.gen.next.next.w) < 0 ↔ s.gen.next.w.getLsbD 31 = true)

/-- 43_bit_cache.md R61: BOOL refills an empty cache with one step and hands out bit 31 of the new word; otherwise it
takes no step and hands out the marked bit; the mask moves right by one. Unseeded it fails. -/
def Obligations.BoolHandsOutTheMarkedBit : Prop :=
  (∀ a : Word, decode (mkCommand a 0x5#4) = .ok .bool) ∧
  ∀ s : State,
    (s.seeded = true → s.bitMask = 0#32 → exec .bool s =
      .next { s with
        gen := s.gen.next
        bitBuf := s.gen.next.w
        bitMask := 0x40000000#32
        outbox := s.outbox ++
          [{ code := .ok, status := statusBits s.err true,
             result := if s.params.boolOneIsTrue = s.gen.next.w.getLsbD 31 then 1#64 else 0#64 }] }) ∧
    (s.seeded = true → s.bitMask ≠ 0#32 → exec .bool s =
      .next { s with
        bitMask := s.bitMask >>> 1
        outbox := s.outbox ++
          [{ code := .ok, status := statusBits s.err true,
             result :=
              if s.params.boolOneIsTrue = decide (s.bitBuf &&& s.bitMask ≠ 0#32) then 1#64 else 0#64 }] }) ∧
    (s.seeded = false → exec .bool s =
      .next { s with
        err := true
        outbox := s.outbox ++ [{ code := .notSeeded, status := statusBits true false, result := 0#64 }] })

/-! ## The bit cache -/

/-- 43_bit_cache.md R62: from an empty cache n BOOL commands take ceil(n / 32) steps and return bits 31 down to 0 of
each word in order; from a cache with k + 1 unread bits the next k + 1 BOOL commands return those bits and take no
step. -/
def Obligations.BooleanBitEconomy : Prop :=
  (∀ (n : Nat) (s : State), s.seeded = true → s.bitMask = 0#32 →
    ∃ t, runInstrs (List.replicate n .bool) s = .next t ∧
      t.gen = Gen.iter ((n + 31) / 32) s.gen ∧
      (t.bitMask = 0#32 ↔ n % 32 = 0) ∧
      t.outbox = s.outbox ++ (List.range n).map (fun j =>
        { code := .ok, status := statusBits s.err true,
          result := boolResult s.params.boolOneIsTrue
            ((Gen.iter (j / 32 + 1) s.gen).w.getLsbD (31 - j % 32)) })) ∧
  (∀ (k : Nat) (s : State), s.seeded = true → k < 32 → s.bitMask = BitVec.twoPow 32 k →
    ∃ t, runInstrs (List.replicate (k + 1) .bool) s = .next t ∧
      t.gen = s.gen ∧ t.bitBuf = s.bitBuf ∧ t.bitMask = 0#32 ∧
      t.outbox = s.outbox ++ (List.range (k + 1)).map (fun j =>
        { code := .ok, status := statusBits s.err true,
          result := boolResult s.params.boolOneIsTrue (s.bitBuf.getLsbD (k - j)) }))

/-- 43_bit_cache.md R63: WORD, NEXT31, NEXT, U64 and I64 neither write nor read BITBUF and BITMASK. -/
def Obligations.OtherDrawsNeitherReadNorWriteTheCache : Prop :=
  ∀ (i : Instr) (s t : State), i ∈ [Instr.word, .next31, .next, .u64, .i64] → exec i s = .next t →
    t.bitBuf = s.bitBuf ∧ t.bitMask = s.bitMask ∧
    ∀ b m : Word, exec i (s.setCache b m) = .next (t.setCache b m)

/-- 43_bit_cache.md R64: the polarity changes BOOL's RESULT bit and nothing else, and no other command's answer. -/
def Obligations.PolarityChangesOnlyTheBoolResult : Prop :=
  ∀ (s t : State) (i : Instr) (p : Params), p = { s.params with boolOneIsTrue := !s.params.boolOneIsTrue } →
    exec i s = .next t →
    (i ≠ .bool → exec i { s with params := p } = .next { t with params := p }) ∧
    (i = .bool → s.seeded = true → ∃ r, t.outbox = s.outbox ++ [r] ∧ (r.result = 0#64 ∨ r.result = 1#64) ∧
      exec i { s with params := p } =
        .next { t with params := p, outbox := s.outbox ++ [{ r with result := 1#64 - r.result }] })

/-! ## Errors and flags -/

/-- 60_exceptions.md R68: every draw with SEEDED = 0 fails with NOT_SEEDED, takes no step and leaves the cache; SEED
never raises it. -/
def Obligations.DrawBeforeSeedFails : Prop :=
  (∀ (i : Instr) (s : State), i.isDraw = true → s.seeded = false →
    exec i s =
      .next { s with
        err := true
        outbox := s.outbox ++ [{ code := .notSeeded, status := statusBits true false, result := 0#64 }] }) ∧
  (∀ (v : Word) (s : State), ∃ t r, exec (.seed v) s = .next t ∧ t.outbox = s.outbox ++ [r] ∧ r.code = .ok)

/-- 60_exceptions.md R70: a command that ends in an error sets ERR, leaves everything else unchanged and sends RESULT 0
with the unchanged SEEDED. -/
def Obligations.ErrorsChangeOnlyTheErrorFlag : Prop :=
  ∀ (s t : State) (w : Command) (rest : List PortEvent) (r : Response),
    step (s.accepting w rest) = .next t → t.outbox = s.outbox ++ [r] → r.code ≠ .ok →
    t = { s with inbox := rest, err := true, outbox := s.outbox ++ [r] } ∧
    r.result = 0#64 ∧ r.status = statusBits true s.seeded

/-- 10_state.md R12: a command sets ERR exactly when it ends in an error and never clears it; reset clears it. -/
def Obligations.ErrIsStickyUntilReset : Prop :=
  (∀ (s t : State) (w : Command) (rest : List PortEvent), step (s.accepting w rest) = .next t →
    ∃ r, t.outbox = s.outbox ++ [r] ∧ t.err = (s.err || decide (r.code ≠ .ok)) ∧ r.status.getLsbD 1 = t.err) ∧
  (∀ (s t : State) (rest : List PortEvent), step (s.setInbox (.reset :: rest)) = .next t → t.err = false)

/-- 10_state.md R11: SEEDED is set by every SEED and by nothing else, cleared by reset alone, and a draw that finds it 0
fails. -/
def Obligations.SeededIsSetBySeedAndClearedByReset : Prop :=
  (∀ (s t : State) (w : Command) (rest : List PortEvent), step (s.accepting w rest) = .next t →
    ∃ r, t.outbox = s.outbox ++ [r] ∧ t.seeded = (s.seeded || decide (cmdOp w = 0x1#4)) ∧
      r.status.getLsbD 0 = t.seeded ∧
      (s.seeded = false → 0x2#4 ≤ cmdOp w → cmdOp w ≤ 0x7#4 → r.code = .notSeeded)) ∧
  (∀ (s t : State) (rest : List PortEvent), step (s.setInbox (.reset :: rest)) = .next t → t.seeded = false)

/-- 60_exceptions.md R72: a run of commands that ends with ERR = 0 began with ERR = 0 and answered OK every time. -/
def Obligations.ErrClearAtTheEndMeansNoErrorResponse : Prop :=
  ∀ (ws : List Command) (s t : State), runCommands ws s = .next t → t.err = false →
    s.err = false ∧ t.allOkFrom s.outbox.length

/-- 30_encoding.md R33: ARG is the seed's two's-complement pattern and SEED copies it into X unchanged; every other
command ignores ARG. -/
def Obligations.OnlySeedReadsItsArgument : Prop :=
  (∀ v : Int, -2147483648 ≤ v → v ≤ 2147483647 → s32 (seedArg v) = v) ∧
  (∀ v : Int, ((seedArg v).toNat : Int) = v % 2 ^ 32) ∧
  (∀ (s : State) (v : Word) (rest : List PortEvent), ∃ t,
    step (s.accepting (mkCommand v 0x1#4) rest) = .next t ∧ t.gen.x = v) ∧
  (∀ (s : State) (a b : Word) (op : Opcode) (rest : List PortEvent), op ≠ 0x1#4 →
    step (s.accepting (mkCommand a op) rest) = step (s.accepting (mkCommand b op) rest))

/-! ## Invariants and whole-machine rules -/

/-- 10_state.md R16, R17 and 00_scope.md R5: every step keeps the constants non-zero, a seeded generator not all zero,
and the mask zero or one-hot. -/
def Obligations.EveryStepKeepsTheInvariant : Prop :=
  ∀ s t : State, s.Inv → step s = .next t → t.Inv

/-- The invariant holds right after reset. -/
def Obligations.InvariantHoldsAtReset : Prop :=
  State.reset.Inv

/-- 40_construction.md R44: two runs that send SEED v and then the same commands, from any two states of blocks with the
same parameters, give the same codes and results and end with the same registers; where ERR was the same before them,
the whole responses are the same. (That STATUS needs the same ERR is the model's reading, log entry 14.) -/
def Obligations.SameSeedAndCommandsSameResponses : Prop :=
  ∀ (v : Word) (ws : List Command) (s₁ s₂ : State), s₁.params = s₂.params → ∃ t₁ t₂ : State,
    runCommands (encode (.seed v) :: ws) s₁ = .next t₁ ∧ runCommands (encode (.seed v) :: ws) s₂ = .next t₂ ∧
    t₁.gen = t₂.gen ∧ t₁.bitBuf = t₂.bitBuf ∧ t₁.bitMask = t₂.bitMask ∧ t₁.seeded = t₂.seeded ∧
    (t₁.outbox.drop s₁.outbox.length).map (fun r => (r.code, r.result)) =
      (t₂.outbox.drop s₂.outbox.length).map (fun r => (r.code, r.result)) ∧
    (s₁.err = s₂.err → t₁.err = t₂.err ∧ t₁.outbox.drop s₁.outbox.length = t₂.outbox.drop s₂.outbox.length)

/-- 10_state.md R18: no response depends on the X, Y, Z and W of a block that has taken no SEED: whatever happens at the
port, another value of them gives the requester the same responses, and the same state but for those four registers;
once a SEED has come, the very same state. -/
def Obligations.UnseededGeneratorIsUnobservable : Prop :=
  ∀ (es : List PortEvent) (s : State) (g : Gen), s.seeded = false → ∃ t u : State,
    runEvents es s = .next t ∧ runEvents es (s.setGen g) = .next u ∧ u.visible = t.visible ∧
    u = t.setGen u.gen ∧ (t.seeded = true → u = t)

/-- 70_reset_and_hazards.md R87: the results are the same for every latency. -/
def Obligations.LatencyNeverMatters : Prop :=
  ∀ (es : List PortEvent) (s t : State) (l : Latency), runEvents es s = .next t →
    runEvents es { s with params := { s.params with latency := l } } =
      .next { t with params := { t.params with latency := l } }

/-- The parameters are no state of the block (10_state.md R19): no step changes them (log entry 1). -/
def Obligations.NoStepChangesTheParameters : Prop :=
  ∀ s t : State, step s = .next t → t.params = s.params

/-- 70_reset_and_hazards.md R86: the number of generator steps of each command. -/
def Obligations.GeneratorStepsOfEachCommand : Prop :=
  (∀ (v : Word) (s : State), ∃ t, exec (.seed v) s = .next t ∧
    t.gen = { x := v, y := s.params.y0, z := s.params.z0, w := s.params.w0 }) ∧
  (∀ (i : Instr) (s : State), s.seeded = true → i = .word ∨ i = .next31 →
    ∃ t, exec i s = .next t ∧ t.gen = Gen.iter 1 s.gen) ∧
  (∀ s : State, s.seeded = true → ∃ t k, exec .next s = .next t ∧ 1 ≤ k ∧ k ≤ 5 ∧ t.gen = Gen.iter k s.gen) ∧
  (∀ s : State, s.seeded = true →
    ∃ t, exec .bool s = .next t ∧ t.gen = Gen.iter (if s.bitMask = 0#32 then 1 else 0) s.gen) ∧
  (∀ (i : Instr) (s : State), s.seeded = true → i = .u64 ∨ i = .i64 →
    ∃ t, exec i s = .next t ∧ t.gen = Gen.iter 2 s.gen) ∧
  (∀ (s t : State) (w : Command) (rest : List PortEvent) (r : Response),
    step (s.accepting w rest) = .next t → t.outbox = s.outbox ++ [r] → r.code ≠ .ok → t.gen = s.gen)

/-- What every command leaves alone. Of the block's registers: no command but SEED writes SEEDED, no successful one
writes ERR, and BOOL on a non-empty cache leaves the generator and BITBUF (10_state.md R10, R11, R12, R14;
43_bit_cache.md R61). Of the model's own fields: no command changes what is still to come (20_memory.md R30; log entry
4), what was sent (log entry 5), the parameters (10_state.md R19; log entry 1) or the free-word counter (log entry 3).
What WORD, NEXT31, NEXT, U64 and I64 leave of the cache is OtherDrawsNeitherReadNorWriteTheCache. -/
def Obligations.FrameOfEveryCommand : Prop :=
  ∀ (i : Instr) (s t : State), exec i s = .next t →
    t.inbox = s.inbox ∧ t.params = s.params ∧ t.freeCtr = s.freeCtr ∧
    t.outbox.take s.outbox.length = s.outbox ∧
    (i.isDraw = true → t.seeded = s.seeded) ∧
    (i.isDraw = false ∨ s.seeded = true → t.err = s.err) ∧
    (i = .bool → s.bitMask ≠ 0#32 → t.gen = s.gen ∧ t.bitBuf = s.bitBuf)

/-! ## The requester's side -/

/-- 20_memory.md R21, R23: the bytes of a word and of a 64-bit result, little-endian; the first four bytes of a U64 are
the second word drawn. -/
def Obligations.BytesAreLittleEndian : Prop :=
  (∀ v : Word, bytesOfWord v = (List.range 4).map (fun k => (v >>> (8 * k)).setWidth 8)) ∧
  (∀ v : Long, bytesOfLong v = (List.range 8).map (fun k => (v >>> (8 * k)).setWidth 8)) ∧
  (∀ hi lo : Word, bytesOfLong (concat64 hi lo) = bytesOfWord lo ++ bytesOfWord hi) ∧
  (∀ v : Word, (bytesOfWord v).foldr (fun b n => b.toNat + 256 * n) 0 = v.toNat)

/-- 20_memory.md R22: a stream of n bytes, built from the responses of ceil(n / 4) WORD commands, is the stream of the
rule, and advances the state ceil(n / 4) times. -/
def Obligations.ByteStreamTakesCeilQuarterWords : Prop :=
  ∀ (n : Nat) (s : State), s.seeded = true → ∃ t, runInstrs (expand (.bytes n)) s = .next t ∧
    streamOfResults n ((t.outbox.drop s.outbox.length).map Response.result) = (drawBytes n s.gen).1 ∧
    t.gen = (drawBytes n s.gen).2 ∧ t.gen = Gen.iter ((n + 3) / 4) s.gen ∧ (drawBytes n s.gen).1.length = n

/-- 30_encoding.md R39: each plain mnemonic assembles to its own command's word, the aliases to the word of the command
they name, and a seed is refused exactly when it lies outside -2^31 .. 2^32 - 1; otherwise it assembles to its
two's-complement pattern. That an ignored ARG is written 0 is the model's choice, log entry 16. -/
def Obligations.AliasesAndSeedOperandsAssemble : Prop :=
  assemble .word = .ok [mkCommand 0#32 0x2#4] ∧ assemble .next31 = .ok [mkCommand 0#32 0x3#4] ∧
  assemble .next = .ok [mkCommand 0#32 0x4#4] ∧ assemble .bool = .ok [mkCommand 0#32 0x5#4] ∧
  assemble .u64 = .ok [mkCommand 0#32 0x6#4] ∧ assemble .i64 = .ok [mkCommand 0#32 0x7#4] ∧
  assemble .word = .ok [encode .word] ∧ assemble .next31 = .ok [encode .next31] ∧
  assemble .next = .ok [encode .next] ∧ assemble .bool = .ok [encode .bool] ∧
  assemble .u64 = .ok [encode .u64] ∧ assemble .i64 = .ok [encode .i64] ∧
  assemble .advance = assemble .word ∧ assemble .nextWord = assemble .word ∧ assemble .nextUInt = assemble .word ∧
  assemble .nextULong = assemble .u64 ∧ assemble .nextLong = assemble .i64 ∧ assemble .nextBool = assemble .bool ∧
  (∀ v : Int, v < -2147483648 ∨ 4294967295 < v → assemble (.seed v) = .error .outOfRange) ∧
  (∀ v : Int, -2147483648 ≤ v → v ≤ 4294967295 →
    ∃ a : Word, (a.toNat : Int) = v % 2 ^ 32 ∧ assemble (.seed v) = .ok [mkCommand a 0x1#4])

/-- SKIP n is n WORD commands and BYTES n is ceil(n / 4) of them (30_encoding.md R40), and each assembles to that many
words 0x000000002: the ignored ARG is written 0, which is the model's choice, log entry 16 (95_test_vectors.md L3-1
writes WORD so). -/
def Obligations.PseudoCommandsExpandToWords : Prop :=
  ∀ n : Nat, expand (.skip n) = List.replicate n .word ∧
    expand (.bytes n) = List.replicate ((n + 3) / 4) .word ∧
    assemble (.skip n) = .ok (List.replicate n 0x000000002#36) ∧
    assemble (.bytes n) = .ok (List.replicate ((n + 3) / 4) 0x000000002#36)
end

