-- ==== Sys2Proof/Laws/State.lean ====
section
/-! SUPPORT. One lemma per field per register update, so that no later proof unfolds a record update. -/

namespace Sys2Proof.Machine

section SetGen
variable (s : State) (g : Gen)
@[simp] theorem setGen_gen : (s.setGen g).gen = g := rfl
@[simp] theorem setGen_bitBuf : (s.setGen g).bitBuf = s.bitBuf := rfl
@[simp] theorem setGen_bitMask : (s.setGen g).bitMask = s.bitMask := rfl
@[simp] theorem setGen_seeded : (s.setGen g).seeded = s.seeded := rfl
@[simp] theorem setGen_err : (s.setGen g).err = s.err := rfl
@[simp] theorem setGen_inbox : (s.setGen g).inbox = s.inbox := rfl
@[simp] theorem setGen_outbox : (s.setGen g).outbox = s.outbox := rfl
@[simp] theorem setGen_params : (s.setGen g).params = s.params := rfl
@[simp] theorem setGen_freeCtr : (s.setGen g).freeCtr = s.freeCtr := rfl
end SetGen

section SetCache
variable (s : State) (b m : Word)
@[simp] theorem setCache_gen : (s.setCache b m).gen = s.gen := rfl
@[simp] theorem setCache_bitBuf : (s.setCache b m).bitBuf = b := rfl
@[simp] theorem setCache_bitMask : (s.setCache b m).bitMask = m := rfl
@[simp] theorem setCache_seeded : (s.setCache b m).seeded = s.seeded := rfl
@[simp] theorem setCache_err : (s.setCache b m).err = s.err := rfl
@[simp] theorem setCache_inbox : (s.setCache b m).inbox = s.inbox := rfl
@[simp] theorem setCache_outbox : (s.setCache b m).outbox = s.outbox := rfl
@[simp] theorem setCache_params : (s.setCache b m).params = s.params := rfl
@[simp] theorem setCache_freeCtr : (s.setCache b m).freeCtr = s.freeCtr := rfl
end SetCache

section SetInbox
variable (s : State) (es : List PortEvent)
@[simp] theorem setInbox_gen : (s.setInbox es).gen = s.gen := rfl
@[simp] theorem setInbox_bitBuf : (s.setInbox es).bitBuf = s.bitBuf := rfl
@[simp] theorem setInbox_bitMask : (s.setInbox es).bitMask = s.bitMask := rfl
@[simp] theorem setInbox_seeded : (s.setInbox es).seeded = s.seeded := rfl
@[simp] theorem setInbox_err : (s.setInbox es).err = s.err := rfl
@[simp] theorem setInbox_inbox : (s.setInbox es).inbox = es := rfl
@[simp] theorem setInbox_outbox : (s.setInbox es).outbox = s.outbox := rfl
@[simp] theorem setInbox_params : (s.setInbox es).params = s.params := rfl
@[simp] theorem setInbox_freeCtr : (s.setInbox es).freeCtr = s.freeCtr := rfl
@[simp] theorem setInbox_setInbox (fs : List PortEvent) : (s.setInbox es).setInbox fs = s.setInbox fs := rfl
end SetInbox

section Send
variable (s : State) (r : Response)
@[simp] theorem send_gen : (s.send r).gen = s.gen := rfl
@[simp] theorem send_bitBuf : (s.send r).bitBuf = s.bitBuf := rfl
@[simp] theorem send_bitMask : (s.send r).bitMask = s.bitMask := rfl
@[simp] theorem send_seeded : (s.send r).seeded = s.seeded := rfl
@[simp] theorem send_err : (s.send r).err = s.err := rfl
@[simp] theorem send_inbox : (s.send r).inbox = s.inbox := rfl
@[simp] theorem send_outbox : (s.send r).outbox = s.outbox ++ [r] := rfl
@[simp] theorem send_params : (s.send r).params = s.params := rfl
@[simp] theorem send_freeCtr : (s.send r).freeCtr = s.freeCtr := rfl
end Send

section Flags
variable (s : State)
@[simp] theorem setSeeded_gen : s.setSeeded.gen = s.gen := rfl
@[simp] theorem setSeeded_bitBuf : s.setSeeded.bitBuf = s.bitBuf := rfl
@[simp] theorem setSeeded_bitMask : s.setSeeded.bitMask = s.bitMask := rfl
@[simp] theorem setSeeded_seeded : s.setSeeded.seeded = true := rfl
@[simp] theorem setSeeded_err : s.setSeeded.err = s.err := rfl
@[simp] theorem setSeeded_inbox : s.setSeeded.inbox = s.inbox := rfl
@[simp] theorem setSeeded_outbox : s.setSeeded.outbox = s.outbox := rfl
@[simp] theorem setSeeded_params : s.setSeeded.params = s.params := rfl
@[simp] theorem setSeeded_freeCtr : s.setSeeded.freeCtr = s.freeCtr := rfl
@[simp] theorem setErr_gen : s.setErr.gen = s.gen := rfl
@[simp] theorem setErr_bitBuf : s.setErr.bitBuf = s.bitBuf := rfl
@[simp] theorem setErr_bitMask : s.setErr.bitMask = s.bitMask := rfl
@[simp] theorem setErr_seeded : s.setErr.seeded = s.seeded := rfl
@[simp] theorem setErr_err : s.setErr.err = true := rfl
@[simp] theorem setErr_inbox : s.setErr.inbox = s.inbox := rfl
@[simp] theorem setErr_outbox : s.setErr.outbox = s.outbox := rfl
@[simp] theorem setErr_params : s.setErr.params = s.params := rfl
@[simp] theorem setErr_freeCtr : s.setErr.freeCtr = s.freeCtr := rfl
end Flags

section Reset
variable (s : State)
@[simp] theorem applyReset_gen : s.applyReset.gen = freeGen s.freeCtr := rfl
@[simp] theorem applyReset_bitBuf : s.applyReset.bitBuf = 0#32 := rfl
@[simp] theorem applyReset_bitMask : s.applyReset.bitMask = 0#32 := rfl
@[simp] theorem applyReset_seeded : s.applyReset.seeded = false := rfl
@[simp] theorem applyReset_err : s.applyReset.err = false := rfl
@[simp] theorem applyReset_inbox : s.applyReset.inbox = s.inbox := rfl
@[simp] theorem applyReset_outbox : s.applyReset.outbox = s.outbox := rfl
@[simp] theorem applyReset_params : s.applyReset.params = s.params := rfl
@[simp] theorem applyReset_freeCtr : s.applyReset.freeCtr = s.freeCtr + 4 := rfl
end Reset

/-- Two states with the same fields are the same state. -/
theorem State.eq_of_fields {s t : State} (hg : s.gen = t.gen) (hb : s.bitBuf = t.bitBuf)
    (hm : s.bitMask = t.bitMask) (hs : s.seeded = t.seeded) (he : s.err = t.err) (hi : s.inbox = t.inbox)
    (ho : s.outbox = t.outbox) (hp : s.params = t.params) (hf : s.freeCtr = t.freeCtr) : s = t := by
  cases s; cases t; simp_all

end Sys2Proof.Machine
end

