-- ==== Sys2Proof/Laws/Ops.lean ====
section
/-! SUPPORT. One lemma per shared operation that says once what it can do. -/

namespace Sys2Proof.Machine

/-! ## Command words -/

@[simp] theorem cmdOp_mkCommand (a : Word) (op : Opcode) : cmdOp (mkCommand a op) = op := by
  unfold cmdOp mkCommand
  exact BitVec.extractLsb'_append_eq_right

@[simp] theorem cmdArg_mkCommand (a : Word) (op : Opcode) : cmdArg (mkCommand a op) = a := by
  unfold cmdArg mkCommand
  exact BitVec.extractLsb'_append_eq_left

/-- The bits of a command word (R32). -/
theorem getLsbD_mkCommand (a : Word) (op : Opcode) (i : Nat) :
    (mkCommand a op).getLsbD i = if i < 4 then op.getLsbD i else a.getLsbD (i - 4) :=
  BitVec.getLsbD_append

/-- The bits of a response word (R35). -/
theorem getLsbD_pack (r : Response) (i : Nat) :
    r.pack.getLsbD i =
      if i < 2 then r.code.bits.getLsbD i
      else if i < 4 then r.status.getLsbD (i - 2) else r.result.getLsbD (i - 4) := by
  have outer : r.pack.getLsbD i =
      if i < 2 then r.code.bits.getLsbD i else (r.result ++ r.status).getLsbD (i - 2) :=
    BitVec.getLsbD_append
  have inner : (r.result ++ r.status).getLsbD (i - 2) =
      if i - 2 < 2 then r.status.getLsbD (i - 2) else r.result.getLsbD (i - 2 - 2) :=
    BitVec.getLsbD_append
  rw [outer, inner, Nat.sub_sub]
  by_cases h : i < 4
  · simp only [h, show i - 2 < 2 by omega, if_true]
  · simp only [h, show ¬ i - 2 < 2 by omega, if_false, Nat.reduceAdd]

/-! ## The word generator -/

@[simp] theorem advance_eq (s : State) : s.advance = s.setGen s.gen.next := rfl

@[simp] theorem lastWord_eq (s : State) : s.lastWord = s.gen.w := rfl

@[simp] theorem iter_zero (g : Gen) : g.iter 0 = g := rfl

theorem iter_succ (n : Nat) (g : Gen) : Gen.iter (n + 1) g = Gen.iter n g.next := rfl

/-- The last of `n + 1` steps, taken apart at the other end. -/
theorem iter_succ_last (n : Nat) (g : Gen) : Gen.iter (n + 1) g = (Gen.iter n g).next := by
  induction n generalizing g with
  | zero => rfl
  | succ n ih => rw [iter_succ, ih, ← iter_succ]

theorem iter_add (m n : Nat) (g : Gen) : Gen.iter (m + n) g = Gen.iter n (Gen.iter m g) := by
  induction m generalizing g with
  | zero => simp
  | succ m ih => rw [Nat.succ_add, iter_succ, ih, ← iter_succ]

/-! ## Responses, errors and the draw guard -/

/-- `respond` always answers a next state, with one more response. -/
theorem respond_eq (c : Code) (v : Long) (s : State) :
    respond c v s = .next (s.send { code := c, status := statusBits s.err s.seeded, result := v }) := rfl

/-- `raise Error` always answers a next state: ERR is set and a response with RESULT 0 is sent. -/
theorem raiseError_eq (c : Code) (s : State) :
    raiseError c s = .next (s.setErr.send { code := c, status := statusBits true s.seeded, result := 0#64 }) := rfl

theorem whenSeeded_seeded {s : State} (h : s.seeded = true) (body : Result) : whenSeeded s body = body := by
  simp [whenSeeded, h]

theorem whenSeeded_unseeded {s : State} (h : s.seeded = false) (body : Result) :
    whenSeeded s body =
      .next (s.setErr.send { code := .notSeeded, status := statusBits true false, result := 0#64 }) := by
  simp [whenSeeded, h, raiseError_eq]

/-! ## The retry loop of NEXT -/

/-- Everything the loop can answer: `k` words that mask to the sentinel, then one that does not, within the fuel. -/
theorem nextLoop_some {fuel : Nat} {g g' : Gen} {v : Word} (h : nextLoop fuel g = some (g', v)) :
    ∃ k, k < fuel ∧ (∀ j, 1 ≤ j → j ≤ k → low31 (Gen.iter j g).w = sentinel) ∧ g' = Gen.iter (k + 1) g ∧
      v = low31 g'.w ∧ v ≠ sentinel := by
  induction fuel generalizing g with
  | zero => simp [nextLoop] at h
  | succ n ih =>
    by_cases hs : low31 g.next.w = sentinel
    · rw [nextLoop, if_pos hs] at h
      obtain ⟨k, hk, hall, rest⟩ := ih h
      refine ⟨k + 1, by omega, ?_, rest⟩
      intro j h1 h2
      obtain ⟨i, rfl⟩ : ∃ i, j = i + 1 := ⟨j - 1, by omega⟩
      cases i with
      | zero => exact hs
      | succ i => rw [iter_succ]; exact hall (i + 1) (by omega) (by omega)
    · rw [nextLoop, if_neg hs] at h
      obtain ⟨rfl, rfl⟩ := Prod.mk.inj (Option.some.inj h)
      exact ⟨0, by omega, fun j h1 h2 => by omega, rfl, rfl, hs⟩

/-- The loop runs out of fuel only when every word it drew masks to the sentinel. -/
theorem nextLoop_none {fuel : Nat} {g : Gen} (h : nextLoop fuel g = none) :
    ∀ j, 1 ≤ j → j ≤ fuel → low31 (Gen.iter j g).w = sentinel := by
  induction fuel generalizing g with
  | zero => exact fun j h1 h2 => by omega
  | succ n ih =>
    by_cases hs : low31 g.next.w = sentinel
    · rw [nextLoop, if_pos hs] at h
      intro j h1 h2
      obtain ⟨i, rfl⟩ : ∃ i, j = i + 1 := ⟨j - 1, by omega⟩
      cases i with
      | zero => exact hs
      | succ i => exact ih h (i + 1) (by omega) (by omega)
    · rw [nextLoop, if_neg hs] at h
      cases h

/-- U64 and I64 share one answer: two steps, the first word high. -/
theorem drawLong_eq (s : State) :
    drawLong s = .next ((s.setGen s.gen.next.next).send
      { code := .ok, status := statusBits s.err s.seeded
        result := concat64 s.gen.next.w s.gen.next.next.w }) := rfl

/-! ## The bit cache -/

theorem refill_empty {s : State} (h : s.bitMask = 0#32) :
    s.refill = (s.setGen s.gen.next).setCache s.gen.next.w topMask := by
  simp [State.refill, h]

theorem refill_nonempty {s : State} (h : s.bitMask ≠ 0#32) : s.refill = s := by
  simp [State.refill, h]

section Refill
variable (s : State)
@[simp] theorem refill_seeded : s.refill.seeded = s.seeded := by unfold State.refill; split <;> rfl
@[simp] theorem refill_err : s.refill.err = s.err := by unfold State.refill; split <;> rfl
@[simp] theorem refill_inbox : s.refill.inbox = s.inbox := by unfold State.refill; split <;> rfl
@[simp] theorem refill_outbox : s.refill.outbox = s.outbox := by unfold State.refill; split <;> rfl
@[simp] theorem refill_params : s.refill.params = s.params := by unfold State.refill; split <;> rfl
@[simp] theorem refill_freeCtr : s.refill.freeCtr = s.freeCtr := by unfold State.refill; split <;> rfl
/-- After a refill the cache is not empty. -/
theorem refill_bitMask_ne_zero : s.refill.bitMask ≠ 0#32 := by
  by_cases h : s.bitMask = 0#32
  · rw [refill_empty h, setCache_bitMask]
    decide
  · rwa [refill_nonempty h]
end Refill

section ShiftMask
variable (s : State)
@[simp] theorem shiftMask_gen : s.shiftMask.gen = s.gen := rfl
@[simp] theorem shiftMask_bitBuf : s.shiftMask.bitBuf = s.bitBuf := rfl
@[simp] theorem shiftMask_bitMask : s.shiftMask.bitMask = s.bitMask >>> 1 := rfl
@[simp] theorem shiftMask_seeded : s.shiftMask.seeded = s.seeded := rfl
@[simp] theorem shiftMask_err : s.shiftMask.err = s.err := rfl
@[simp] theorem shiftMask_inbox : s.shiftMask.inbox = s.inbox := rfl
@[simp] theorem shiftMask_outbox : s.shiftMask.outbox = s.outbox := rfl
@[simp] theorem shiftMask_params : s.shiftMask.params = s.params := rfl
@[simp] theorem shiftMask_freeCtr : s.shiftMask.freeCtr = s.freeCtr := rfl
end ShiftMask

/-! ## The step and runs -/

theorem step_waiting {s : State} (h : s.inbox = []) : step s = .next s := by
  simp [step, State.takeEvent, h]

theorem step_accepting (s : State) (w : Command) (rest : List PortEvent) :
    step (s.accepting w rest) = runCommand w (s.setInbox rest) := rfl

theorem step_reset (s : State) (rest : List PortEvent) :
    step (s.setInbox (.reset :: rest)) = .next (s.setInbox rest).applyReset := rfl

theorem step_resetDuring (s : State) (w : Command) (rest : List PortEvent) :
    step (s.setInbox (.resetDuring w :: rest)) = .next (s.setInbox rest).applyReset := rfl

/-- Everything one step can do: wait, run a decoded command, answer a reserved OP, or reset. -/
theorem step_cases (s : State) :
    (s.inbox = [] ∧ step s = .next s) ∨
    (∃ w rest i, s.inbox = .command w :: rest ∧ decode w = .ok i ∧ step s = exec i (s.setInbox rest)) ∨
    (∃ w rest op, s.inbox = .command w :: rest ∧ decode w = .error (.illegalOp op) ∧
      step s = raiseError .illegalOp (s.setInbox rest)) ∨
    (∃ rest, (s.inbox = .reset :: rest ∨ ∃ w, s.inbox = .resetDuring w :: rest) ∧
      step s = .next (s.setInbox rest).applyReset) := by
  cases hs : s.inbox with
  | nil => exact .inl ⟨rfl, step_waiting hs⟩
  | cons e rest =>
    cases e with
    | command w =>
      have hstep : step s = runCommand w (s.setInbox rest) := by simp [step, State.takeEvent, hs]
      cases hd : decode w with
      | ok i => exact .inr (.inl ⟨w, rest, i, rfl, hd, by simp [hstep, runCommand, hd]⟩)
      | error e =>
        obtain ⟨op⟩ := e
        exact .inr (.inr (.inl ⟨w, rest, op, rfl, hd, by simp [hstep, runCommand, hd, illegalCommand]⟩))
    | reset => exact .inr (.inr (.inr ⟨rest, .inl rfl, by simp [step, State.takeEvent, hs]⟩))
    | resetDuring w => exact .inr (.inr (.inr ⟨rest, .inr ⟨w, rfl⟩, by simp [step, State.takeEvent, hs]⟩))

/-- The model's run is the host's run of the core. -/
theorem runFor_eq_core_run (k : Nat) (s : State) : runFor k s = Host.Core.run Sys2Proof.core k s := by
  induction k generalizing s with
  | zero => rfl
  | succ k ih =>
    cases h : step s with
    | next t =>
      have h' : Sys2Proof.core.step s = .next t := h
      simp only [runFor, h, Host.Core.run.eq_2 Sys2Proof.core s k, h']
      exact ih t
    | fault f =>
      have h' : Sys2Proof.core.step s = .fault f := h
      simp only [runFor, h, Host.Core.run.eq_2 Sys2Proof.core s k, h']
      rfl
    | refused r =>
      have h' : Sys2Proof.core.step s = .refused r := h
      simp only [runFor, h, Host.Core.run.eq_2 Sys2Proof.core s k, h']
      rfl

/-! ## Parameters -/

/-- A constant of SEED is never zero (R5). -/
theorem nonZeroWord_ne_zero (i : Fin 4294967295) : Config.nonZeroWord i ≠ 0#32 := by
  intro h
  have h2 := congrArg BitVec.toNat h
  simp only [Config.nonZeroWord, BitVec.toNat_ofNat] at h2
  have := i.isLt
  omega

end Sys2Proof.Machine
end

