-- ==== Sys2Proof/Laws/PerInstr.lean ====
section
/-! SUPPORT. A family of facts about every instruction as syntax, one lemma per constructor: its words carry its OP
from the map of spec/30_encoding.md R34, and that OP is not reserved (R37). -/

namespace Sys2Proof.Laws.OpcodeField

/-- Every word of the instruction has the instruction's OP in bits 3:0, and the OP lies in 0x1 .. 0x7. -/
def Statement (i : Instr) : Prop :=
  i.wf = true ∧ (∀ a, cmdOp (encodeWith a i) = i.opcode) ∧ 1 ≤ i.opcode.toNat ∧ i.opcode.toNat ≤ 7

theorem op_of_fields (a : Word) (op : Opcode) : cmdOp (mkCommand a op) = op := by
  unfold cmdOp mkCommand
  exact BitVec.extractLsb'_append_eq_right

theorem seed (v : Word) : Statement (.seed v) := ⟨rfl, fun _ => op_of_fields _ _, Nat.le_refl 1, Nat.le_add_left 1 6⟩
theorem word : Statement .word := ⟨rfl, fun _ => op_of_fields _ _, by decide, by decide⟩
theorem next31 : Statement .next31 := ⟨rfl, fun _ => op_of_fields _ _, by decide, by decide⟩
theorem next : Statement .next := ⟨rfl, fun _ => op_of_fields _ _, by decide, by decide⟩
theorem bool : Statement .bool := ⟨rfl, fun _ => op_of_fields _ _, by decide, by decide⟩
theorem u64 : Statement .u64 := ⟨rfl, fun _ => op_of_fields _ _, by decide, by decide⟩
theorem i64 : Statement .i64 := ⟨rfl, fun _ => op_of_fields _ _, by decide, by decide⟩

end Sys2Proof.Laws.OpcodeField
end

