-- ==== Sys2Proof/Tests/Slice0.lean ====
section
/-! SUPPORT. The model's own tests, each about one word or one step, their expected values taken from
spec/95_test_vectors.md (the vector is named) or from the rule named; and for every statement that has hypotheses a
witness that meets them. -/

namespace Sys2Proof.Tests

open Sys2Proof.Machine

/-- The candidate constants of 93_implementation_defined.md G1, in the tests only. -/
def candidate (oneIsTrue : Bool) : Params where
  y0 := 0x32378FC7#32
  z0 := 0xD55F8767#32
  w0 := 0x104AA1AD#32
  boolOneIsTrue := oneIsTrue
  latency := { seed := 1, word := 1, next31 := 1, next := 1, bool := 1, u64 := 1, i64 := 1 }

/-- A block with the given generator, an empty cache and nothing at its port. -/
def block (seeded : Bool) (x y z w : Word) : State where
  gen := { x := x, y := y, z := z, w := w }
  bitBuf := 0#32
  bitMask := 0#32
  seeded := seeded
  err := false
  inbox := []
  outbox := []
  params := candidate true
  freeCtr := 4

/-- The state after an outcome, as the generator and the last response's RESULT. -/
def genAndResult (o : Result) : Option (Gen × Option Long) :=
  (stateOf o).map (fun t => (t.gen, t.lastResponse.map Response.result))

/-- The last response's CODE and STATUS. -/
def codeAndStatus (o : Result) : Option (Option (Code × BitVec 2)) :=
  (stateOf o).map (fun t => t.lastResponse.map (fun r => (r.code, r.status)))

/-- The state after an outcome, as the cache and the last response's RESULT. -/
def cacheAndResult (o : Result) : Option (Word × Word × Option Long) :=
  (stateOf o).map (fun t => (t.bitBuf, t.bitMask, t.lastResponse.map Response.result))

/-! ## Well-formedness: the check of R39 refuses an operand past either end -/

theorem test_wf_seed_too_low : SourceCmd.wf (.seed (-2147483649)) = false := by decide
theorem test_wf_seed_too_high : SourceCmd.wf (.seed 4294967296) = false := by decide
theorem test_wf_seed_ends : SourceCmd.wf (.seed (-2147483648)) && SourceCmd.wf (.seed 4294967295) = true := by decide

/-! ## Decoding: words written out from R32, R34 and 95_test_vectors.md -/

theorem test_decode_seed_42 : decode 0x0000002A1#36 = .ok (.seed 0x0000002A#32) := by rfl
theorem test_decode_seed_min : decode 0x800000001#36 = .ok (.seed 0x80000000#32) := by rfl
theorem test_decode_word : decode 0b000000000000000000000000000000000010#36 = .ok .word := by rfl
theorem test_decode_next31 : decode 0b000000000000000000000000000000000011#36 = .ok .next31 := by rfl
theorem test_decode_next : decode 0b000000000000000000000000000000000100#36 = .ok .next := by rfl
theorem test_decode_bool : decode 0b000000000000000000000000000000000101#36 = .ok .bool := by rfl
theorem test_decode_u64 : decode 0b000000000000000000000000000000000110#36 = .ok .u64 := by rfl
theorem test_decode_i64 : decode 0b000000000000000000000000000000000111#36 = .ok .i64 := by rfl
theorem test_decode_ignored_arg : decode 0x123456782#36 = .ok .word := by rfl
theorem test_decode_op_0 : decode 0x000000000#36 = .error (.illegalOp 0x0#4) := by rfl
theorem test_decode_op_8 : decode 0xFFFFFFFF8#36 = .error (.illegalOp 0x8#4) := by rfl
theorem test_encode_seed_0CAC6EDD : encode (.seed 0x0CAC6EDD#32) = 0x0CAC6EDD1#36 := by rfl
theorem test_table_word : decodeTableWord 36 0x0000002A1 = some (.seed 0x2A#32) := by rfl
theorem test_table_word_reserved : decodeTableWord 36 0x00000000F = none := by rfl

/-! ## The step function (V-STEP-1, V-STEP-4, V-STEP-5, V-STEP-8, V-STEP-M; V-INV-2) -/

theorem test_step_1 : xsWord 0x00000001#32 0#32 = 0x00000809#32 := by decide
theorem test_step_4 : xsWord 0x80000000#32 0#32 = 0x80800000#32 := by decide
theorem test_step_5 : xsWord 0#32 0x80000000#32 = 0x80001000#32 := by decide
theorem test_step_8 : xsWord 0xFFFFFFFF#32 0xFFFFFFFF#32 = 0xFFFFE7F8#32 := by decide
theorem test_step_m : xsWord 0x075BCD15#32 0x05491333#32 = 0xDCA345EA#32 := by decide
theorem test_inverse_2 :
    Gen.prev { x := 2#32, y := 3#32, z := 4#32, w := 0x0000080D#32 } =
      { x := 1#32, y := 2#32, z := 3#32, w := 4#32 } := by decide

/-! ## Commands -/

/-- V-SEED-N. -/
theorem test_seed : (stateOf (exec (.seed 0xFFFFFFFF#32) (block false 1 2 3 4))).map (fun t => (t.gen, t.seeded)) =
    some ({ x := 0xFFFFFFFF#32, y := 0x32378FC7#32, z := 0xD55F8767#32, w := 0x104AA1AD#32 }, true) := by decide

/-- V-DEC-5: SEED does not clear ERR. -/
theorem test_seed_keeps_err : codeAndStatus (exec (.seed 1#32) { block true 1 2 3 4 with err := true }) =
    some (some (.ok, 0b11#2)) := by decide

/-- V-WORD-1. -/
theorem test_word : genAndResult (exec .word (block true 1 2 3 4)) =
    some ({ x := 2#32, y := 3#32, z := 4#32, w := 0x0000080D#32 }, some 0x000000000000080D#64) := by decide

/-- V-WORD-3. -/
theorem test_word_unseeded : codeAndStatus (exec .word (block false 1 2 3 4)) = some (some (.notSeeded, 0b10#2)) := by
  decide

/-- V-N31-1. -/
theorem test_next31_drops_bit_31 : (genAndResult (exec .next31 (block true 0x80000000 0 0 0))).map Prod.snd =
    some (some 0x0000000000800000#64) := by decide

/-- V-N31-3: the sentinel is returned. -/
theorem test_next31_sentinel : (genAndResult (exec .next31 (block true 0x38F8FF00 0 0 0))).map Prod.snd =
    some (some 0x000000007FFFFFFF#64) := by decide

/-- V-NEXT-2. -/
theorem test_next_one_retry : genAndResult (exec .next (block true 0x9C7C7F80 0 0 0)) =
    some ({ x := 0#32, y := 0#32, z := 0x7FFFFFFF#32, w := 0x7FFFF000#32 }, some 0x000000007FFFF000#64) := by decide

/-- V-NEXT-5: the longest run. -/
theorem test_next_four_retries :
    genAndResult (exec .next (block true 0xA3640CEC 0x58FB0F70 0x5C7B9F60 0xFC7F8FF0)) =
      some ({ x := 0xFFFFFFFF#32, y := 0x7FFFFFFF#32, z := 0x7FFFFFFF#32, w := 0xFF7FF7F8#32 },
        some 0x000000007F7FF7F8#64) := by decide

/-- V-BOOL-1, first draw: the refill, and bit 31 of 0x0000080D. -/
theorem test_bool_refill : cacheAndResult (exec .bool (block true 1 2 3 4)) =
    some (0x0000080D#32, 0x40000000#32, some 0#64) := by decide

/-- V-BOOL-1, the draw of bit 11: a 1 bit gives 0 where a 0 bit means true (R64), and the mask moves on (R61). -/
theorem test_bool_polarity :
    cacheAndResult (exec .bool { block true 2 3 4 0x80D with
      bitBuf := 0x0000080D#32, bitMask := 0x00000800#32, params := candidate false }) =
      some (0x0000080D#32, 0x00000400#32, some 0#64) := by decide

/-- V-64-1. -/
theorem test_u64 : genAndResult (exec .u64 (block true 1 2 3 4)) =
    some ({ x := 3#32, y := 4#32, z := 0x0000080D#32, w := 0x0000181F#32 }, some 0x0000080D0000181F#64) := by decide

/-- V-64-4: after SEED 7 with the candidate constants. -/
theorem test_i64 :
    (genAndResult (exec .i64 (block true 7 0x32378FC7 0xD55F8767 0x104AA1AD))).map Prod.snd =
      some (some 0x104A9B9B9E8D67E2#64) := by decide

/-- V-64-2: the RESULT read as signed. -/
theorem test_s64 : s64 0x0000080D0000181F#64 = 8851927603231 := by decide

/-! ## The port -/

/-- V-DEC-2: a reserved OP in an unseeded block, through the step; X, Y, Z and W are the uninterpreted reset words. -/
theorem test_step_illegal : codeAndStatus (step (State.reset.withFetchWord 36 0x00000000F)) =
    some (some (.illegalOp, 0b10#2)) := by decide

/-- The first command after reset (R81): SEED 1, answered OK with SEEDED = 1. -/
theorem test_step_seed_after_reset : codeAndStatus (step (State.reset.withFetchWord 36 0x000000011)) =
    some (some (.ok, 0b01#2)) := by decide

/-- R79: reset clears SEEDED and ERR and sends nothing. -/
theorem test_step_reset :
    (stateOf (step { block true 1 2 3 4 with err := true, inbox := [.reset] })).map
      (fun t => (t.seeded, t.err, t.outbox, t.inbox)) = some (false, false, [], []) := by decide

/-- R80: a reset during a command sends no response. -/
theorem test_step_reset_during :
    (stateOf (step { block true 1 2 3 4 with inbox := [.resetDuring 0x000000002#36] })).map
      (fun t => (t.seeded, t.outbox)) = some (false, []) := by decide

/-! ## The requester's side -/

/-- R35: CODE in bits 1:0, STATUS in 3:2, RESULT above. -/
theorem test_pack : Response.pack { code := .notSeeded, status := 0b10#2, result := 1#64 } = 0b11010#68 := by decide

/-- V-BYTES-1. -/
theorem test_bytes_of_word : bytesOfWord 0x104AA3A4#32 = [0xA4#8, 0xA3#8, 0x4A#8, 0x10#8] := by decide

/-- V-BYTES-4. -/
theorem test_bytes_of_long : bytesOfLong 0x104AA3A49E8D5FDD#64 =
    [0xDD#8, 0x5F#8, 0x8D#8, 0x9E#8, 0xA4#8, 0xA3#8, 0x4A#8, 0x10#8] := by decide

/-- V-BYTES-2. -/
theorem test_stream_5 : streamOfResults 5 [0x104AA3A4#64, 0x9E8D5FDD#64] = [0xA4#8, 0xA3#8, 0x4A#8, 0x10#8, 0xDD#8] := by
  decide

/-- 95_test_vectors.md L3-2: `SEED 42`, in small letters and with a comment (R39). -/
theorem test_assemble_seed :
    assembleLine ['s', 'e', 'e', 'd', ' ', '4', '2', ' ', ';', 'x'] = .ok [0x0000002A1#36] := by rfl

/-- V-SEED-N: a negative decimal. -/
theorem test_assemble_negative : assembleLine ['S', 'E', 'E', 'D', ' ', '-', '1'] = .ok [0xFFFFFFFF1#36] := by rfl

/-- R39: a hexadecimal literal has at most eight digits. -/
theorem test_assemble_long_hex :
    assembleLine ['S', 'E', 'E', 'D', ' ', '0', 'x', '0', '0', '0', '0', '0', '0', '0', '0', '1'] = .error .badLiteral := by
  rfl

/-- R39: an alias. -/
theorem test_assemble_alias : assembleLine ['N', 'e', 'x', 't', 'B', 'o', 'o', 'l'] = .ok [0x000000005#36] := by rfl

/-! ## Witnesses: states and operands that meet a statement's hypotheses -/

theorem witness_EveryCommandWordDecodesByItsOp :
    cmdOp 0x1#36 = 0x1#4 ∧ cmdOp 0x2#36 = 0x2#4 ∧ cmdOp 0x3#36 = 0x3#4 ∧ cmdOp 0x4#36 = 0x4#4 ∧ cmdOp 0x5#36 = 0x5#4 ∧
    cmdOp 0x6#36 = 0x6#4 ∧ cmdOp 0x7#36 = 0x7#4 ∧ cmdOp 0x0#36 = 0x0#4 ∧ 0x8#4 ≤ cmdOp 0x8#36 ∧
    0x8#4 ≤ cmdOp 0xF#36 := by decide

theorem witness_DecodeAndEncodeAgree : decode 0x123456782#36 = .ok .word := by rfl

theorem witness_ResponseWordRoundTrips :
    BitVec.extractLsb' 0 2 0x7#68 = 3#2 ∧
    Response.unpack 0x16#68 = some { code := .notSeeded, status := 1#2, result := 1#64 } := by decide

theorem witness_StepRunsTheDecodedCommand : decode 0x0000002A1#36 = .ok (.seed 42#32) := by rfl

theorem witness_PlacedTableWordRunsNext : decodeTableWord 36 0x000000005 = some .bool := by rfl

theorem witness_ReservedOpFailsWithIllegalOp :
    (0x0#4 : Opcode) = 0x0#4 ∧ (0x8#4 : Opcode) ≤ 0x8#4 ∧ (0x8#4 : Opcode) ≤ 0xF#4 := by decide

theorem witness_WaitingKeepsAllState : State.reset.inbox = [] := rfl

theorem witness_RunsComposeInAcceptanceOrder :
    ∃ t, runEvents [.command 0x000000002#36, .reset] (block true 1 2 3 4) = .next t := ⟨_, rfl⟩

theorem witness_EveryCommandGetsOneResponse :
    ∃ t r, step ((block false 1 2 3 4).accepting 0x000000002#36 []) = .next t ∧ t.outbox = [r] ∧ r.code ≠ .ok :=
  ⟨_, _, rfl, rfl, by decide⟩

theorem witness_ResetKeepsPortAndParameters :
    ∃ t, step ((block true 1 2 3 4).setInbox [.reset]) = .next t := ⟨_, rfl⟩

theorem witness_NewWordBitByBit : 0 < 32 ∧ 31 < 32 := by decide

theorem witness_StateIsTheLastFourWords :
    4 ≤ 4 ∧ ∃ g h : Gen, ∀ j, 4 - 3 ≤ j → j ≤ 4 → (Gen.iter j g).w = (Gen.iter j h).w :=
  ⟨Nat.le_refl 4, (block true 1 2 3 4).gen, (block true 1 2 3 4).gen, fun _ _ _ => rfl⟩

theorem witness_SecondEqualSeedChangesNoRegister :
    ∃ t, exec (.seed 7#32) (block true 1 2 3 4) = .next t := ⟨_, rfl⟩

theorem witness_WordReturnsTheNewWord : (block true 1 2 3 4).seeded = true ∧ (block false 1 2 3 4).seeded = false := by
  decide

theorem witness_ConsecutiveWordsAreTheBulkFill : (block true 1 2 3 4).seeded = true := by decide

theorem witness_Next31ReturnsTheLow31Bits :
    (block true 0x80000000 0 0 0).seeded = true ∧ (block false 0 0 0 0).seeded = false := by decide

/-- New words 0x80800000 and 0x00800000, which differ in bit 31 alone. -/
theorem witness_Next31DoesNotSeeBit31 :
    ∃ s₁ s₂ : State, s₁.seeded = true ∧ s₂.seeded = true ∧ s₁.gen.next.w = 0x80800000#32 ∧
      s₂.gen.next.w = s₁.gen.next.w ^^^ 0x80000000#32 :=
  ⟨block true 0x80000000 0 0 0, block true 0x80000000 0 0 0x80001000, by decide⟩

theorem witness_NextReturnsTheFirstNonSentinel :
    (block true 0x9C7C7F80 0 0 0).seeded = true ∧ (block false 0x9C7C7F80 0 0 0).seeded = false := by decide

theorem witness_NextNeverReturnsTheSentinel :
    ∃ s t, s.seeded = true ∧ exec .next s = .next t := ⟨block true 0x9C7C7F80 0 0 0, _, rfl, rfl⟩

theorem witness_U64ReturnsTwoWordsFirstHigh :
    (block true 1 2 3 4).seeded = true ∧ (block false 1 2 3 4).seeded = false := by decide

theorem witness_I64ReturnsTheBitsOfU64 :
    (block true 7 2 3 4).seeded = true ∧ (block false 7 2 3 4).seeded = false := by decide

theorem witness_BoolHandsOutTheMarkedBit :
    ∃ s t u : State, s.seeded = true ∧ s.bitMask = 0#32 ∧ t.seeded = true ∧ t.bitMask ≠ 0#32 ∧ u.seeded = false :=
  ⟨block true 1 2 3 4, { block true 1 2 3 4 with bitMask := 1#32 }, block false 1 2 3 4, by decide⟩

theorem witness_BooleanBitEconomy :
    ∃ s t u : State, s.seeded = true ∧ s.bitMask = 0#32 ∧
      t.seeded = true ∧ 0 < 32 ∧ t.bitMask = BitVec.twoPow 32 0 ∧
      u.seeded = true ∧ 31 < 32 ∧ u.bitMask = BitVec.twoPow 32 31 :=
  ⟨block true 1 2 3 4, { block true 1 2 3 4 with bitMask := 1#32 },
    { block true 1 2 3 4 with bitMask := 0x80000000#32 }, by decide⟩

theorem witness_OtherDrawsNeitherReadNorWriteTheCache :
    ∃ t, Instr.next ∈ [Instr.word, .next31, .next, .u64, .i64] ∧ exec .next (block true 1 2 3 4) = .next t :=
  ⟨_, by decide, rfl⟩

theorem witness_PolarityChangesOnlyTheBoolResult :
    ∃ t u, candidate false = { (block true 1 2 3 4).params with
        boolOneIsTrue := !(block true 1 2 3 4).params.boolOneIsTrue } ∧
      exec .bool (block true 1 2 3 4) = .next t ∧ (block true 1 2 3 4).seeded = true ∧
      exec .u64 (block true 1 2 3 4) = .next u ∧ Instr.u64 ≠ .bool :=
  ⟨_, _, by decide, rfl, by decide, rfl, by decide⟩

theorem witness_DrawBeforeSeedFails : Instr.isDraw .bool = true ∧ State.reset.seeded = false := by decide

theorem witness_ErrorsChangeOnlyTheErrorFlag :
    ∃ t r, step ((block true 1 2 3 4).accepting 0x00000000F#36 []) = .next t ∧
      t.outbox = (block true 1 2 3 4).outbox ++ [r] ∧ r.code ≠ .ok :=
  ⟨_, _, rfl, rfl, by decide⟩

theorem witness_ErrIsStickyUntilReset :
    ∃ t u, step ((block false 1 2 3 4).accepting 0x000000002#36 []) = .next t ∧
      step ((block false 1 2 3 4).setInbox [.reset]) = .next u := ⟨_, _, rfl, rfl⟩

theorem witness_SeededIsSetBySeedAndClearedByReset :
    ∃ t u, step ((block false 1 2 3 4).accepting 0x000000007#36 []) = .next t ∧
      (block false 1 2 3 4).seeded = false ∧ 0x2#4 ≤ cmdOp 0x000000007#36 ∧ cmdOp 0x000000007#36 ≤ 0x7#4 ∧
      0x2#4 ≤ cmdOp 0x000000002#36 ∧ step ((block true 1 2 3 4).setInbox [.reset]) = .next u :=
  ⟨_, _, rfl, by decide, by decide, by decide, by decide, rfl⟩

theorem witness_ErrClearAtTheEndMeansNoErrorResponse :
    ∃ t, runCommands [0x000000002#36, 0x000000007#36] (block true 1 2 3 4) = .next t ∧ t.err = false := ⟨_, rfl, rfl⟩

theorem witness_OnlySeedReadsItsArgument :
    -2147483648 ≤ (-2147483648 : Int) ∧ (2147483647 : Int) ≤ 2147483647 ∧ (0x2#4 : Opcode) ≠ 0x1#4 := by decide

theorem witness_EveryStepKeepsTheInvariant :
    ∃ s t, State.Inv s ∧ s.seeded = true ∧ step s = .next t ∧ s.inbox ≠ [] :=
  ⟨(block true 1 2 3 4).accepting 0x000000002#36 [], _, ⟨by decide, fun _ => by simp [Gen.nonZero, block, State.accepting],
    .inl rfl⟩, rfl, rfl, by decide⟩

theorem witness_SameSeedAndCommandsSameResponses :
    (block true 1 2 3 4).params = (block false 5 6 7 8).params ∧ (block true 1 2 3 4).err = (block false 5 6 7 8).err := by
  decide

theorem witness_UnseededGeneratorIsUnobservable :
    State.reset.seeded = false ∧
    ∃ t, runEvents [.command 0x000000011#36] State.reset = .next t ∧ t.seeded = true := ⟨rfl, _, rfl, rfl⟩

theorem witness_LatencyNeverMatters :
    ∃ t, runEvents [.command 0x000000004#36] (block true 1 2 3 4) = .next t := ⟨_, rfl⟩

theorem witness_NoStepChangesTheParameters :
    ∃ t, step ((block true 1 2 3 4).accepting 0x000000005#36 []) = .next t := ⟨_, rfl⟩

theorem witness_GeneratorStepsOfEachCommand :
    (block true 1 2 3 4).seeded = true ∧
    ∃ t r, step ((block false 1 2 3 4).accepting 0x000000006#36 []) = .next t ∧
      t.outbox = (block false 1 2 3 4).outbox ++ [r] ∧ r.code ≠ .ok := ⟨rfl, _, _, rfl, rfl, by decide⟩

theorem witness_FrameOfEveryCommand :
    ∃ t, exec .bool { block true 1 2 3 4 with bitMask := 1#32 } = .next t ∧
      ({ block true 1 2 3 4 with bitMask := 1#32 } : State).bitMask ≠ 0#32 := ⟨_, rfl, by decide⟩

theorem witness_ByteStreamTakesCeilQuarterWords : (block true 1 2 3 4).seeded = true := by decide

theorem witness_AliasesAndSeedOperandsAssemble :
    (-2147483649 : Int) < -2147483648 ∧ (4294967295 : Int) < 4294967296 ∧
    -2147483648 ≤ (-2147483648 : Int) ∧ (4294967295 : Int) ≤ 4294967295 := by decide

end Sys2Proof.Tests
end

section
/-! PROOFS. The statements about the block's state (spec/10_state.md): the invariant, the flags, the frame of every
command and the unseeded generator. First come the rules they rest on: what words, the generator, the mask and one
command can do. -/

namespace Sys2Proof.Machine

/-! ## Words: what shifting and masking can do -/

/-- A word that equals its own shift to the right is zero. -/
theorem eq_zero_of_xor_ushiftRight {v : Word} {k : Nat} (hk : 0 < k) (h : v ^^^ (v >>> k) = 0#32) : v = 0#32 := by
  have hv : v.toNat = v.toNat / 2 ^ k := by
    rw [← Nat.shiftRight_eq_div_pow, ← BitVec.toNat_ushiftRight, ← BitVec.xor_eq_zero_iff.mp h]
  have hzero : v.toNat = 0 := by
    by_contra hne
    have := Nat.div_lt_self (Nat.pos_of_ne_zero hne) (Nat.one_lt_two_pow hk.ne')
    omega
  exact BitVec.eq_of_toNat_eq hzero

/-- The mix of XS_STEP sends no word but zero to zero. -/
theorem eq_zero_of_xsMix {x : Word} (h : xsMix x = 0#32) : x = 0#32 := by
  have hx : x = x <<< 11 := BitVec.xor_eq_zero_iff.mp h
  have hn := congrArg BitVec.toNat hx
  rw [BitVec.toNat_shiftLeft, Nat.shiftLeft_eq] at hn
  have hzero : x.toNat = 0 := by omega
  exact BitVec.eq_of_toNat_eq hzero

/-- Only two words mask to the sentinel of NEXT (R54). -/
theorem eq_of_low31_eq_sentinel {v : Word} (h : low31 v = sentinel) : v = 0x7FFFFFFF#32 ∨ v = 0xFFFFFFFF#32 := by
  have hmod : v.toNat % 2 ^ 31 = 2 ^ 31 - 1 := by
    rw [← Nat.and_two_pow_sub_one_eq_mod]
    exact congrArg BitVec.toNat h
  have hlt := v.isLt
  have : v.toNat = 2 ^ 31 - 1 ∨ v.toNat = 2 ^ 32 - 1 := by omega
  exact this.imp BitVec.eq_of_toNat_eq BitVec.eq_of_toNat_eq

/-! ## The generator: never all zero (R16), and NEXT's retry bound (R55) -/

/-- A step leads to the all-zero state from nowhere else (R16, R50). -/
theorem Gen.nonZero.next {g : Gen} (h : g.nonZero) : g.next.nonZero := by
  rintro ⟨hy, hz, hw, hnew⟩
  simp only [Gen.next] at hy hz hw hnew
  have hmix : xsMix g.x = 0#32 := by
    apply eq_zero_of_xor_ushiftRight (k := 8) (by omega)
    simpa [xsWord, hw] using hnew
  exact h ⟨eq_zero_of_xsMix hmix, hy, hz, hw⟩

theorem Gen.nonZero.iter {g : Gen} (h : g.nonZero) (k : Nat) : (Gen.iter k g).nonZero := by
  induction k with
  | zero => exact h
  | succ k ih => rw [iter_succ_last]; exact ih.next

/-- SEED constructs a state that is not all zero (R42). -/
theorem seededGen_nonZero {p : Params} (hp : p.wf = true) (v : Word) : (seededGen p v).nonZero := by
  have hy : p.y0 ≠ 0#32 := by
    simp only [Params.wf, Bool.and_eq_true, decide_eq_true_eq] at hp
    obtain ⟨⟨⟨hy, -⟩, -⟩, -⟩ := hp
    exact hy
  exact fun ⟨_, h, _⟩ => hy h

/-- The fifth word of a step sequence comes from the first and the fourth, so five sentinels in a row cannot happen:
NEXT's fuel is enough (R55). -/
theorem nextLoop_ne_none (g : Gen) : nextLoop nextFuel g ≠ none := by
  intro h
  have sent := fun j h1 h5 => nextLoop_none h j h1 h5
  have first := eq_of_low31_eq_sentinel (sent 1 (by decide) (by decide))
  have fourth := eq_of_low31_eq_sentinel (sent 4 (by decide) (by decide))
  have fifth : low31 (xsWord (Gen.iter 1 g).w (Gen.iter 4 g).w) = sentinel := sent 5 (by decide) (by decide)
  rcases first with h1 | h1 <;> rcases fourth with h4 | h4 <;> rw [h1, h4] at fifth <;> revert fifth <;> decide

/-! ## The bit mask: zero or one-hot (R14, R17) -/

theorem maskLegal_zero : maskLegal 0#32 := .inl rfl

theorem maskLegal_topMask : maskLegal topMask := .inr ⟨31, by decide, by decide⟩

theorem twoPow_succ_ushiftRight_one {i : Nat} (h : i + 1 < 32) :
    BitVec.twoPow 32 (i + 1) >>> 1 = BitVec.twoPow 32 i := by
  apply BitVec.eq_of_getLsbD_eq
  intro j hj
  rw [BitVec.getLsbD_ushiftRight, BitVec.getLsbD_twoPow, BitVec.getLsbD_twoPow]
  simp [h, show i < 32 by omega, Nat.add_comm 1 j]

theorem maskLegal.ushiftRight_one {m : Word} (h : maskLegal m) : maskLegal (m >>> 1) := by
  rcases h with rfl | ⟨i, hi, rfl⟩
  · exact .inl (by decide)
  · cases i with
    | zero => exact .inl (by decide)
    | succ i => exact .inr ⟨i, by omega, twoPow_succ_ushiftRight_one hi⟩

theorem maskLegal.refill {s : State} (h : maskLegal s.bitMask) : maskLegal s.refill.bitMask := by
  by_cases hm : s.bitMask = 0#32
  · rw [refill_empty hm]; exact maskLegal_topMask
  · rwa [refill_nonempty hm]

/-! ## What one command can do -/

theorem eq_send_of_respond {c : Code} {v : Long} {s t : State} (h : respond c v s = .next t) :
    t = s.send { code := c, status := s.status, result := v } := by
  cases h; rfl

theorem whenSeeded_raises {s : State} (h : s.seeded = false) (body : Result) :
    whenSeeded s body = raiseError .notSeeded s := by
  simp [whenSeeded, h]

/-- NEXT always answers (R55): some number of steps and one response. -/
theorem execNext_seeded {s : State} (h : s.seeded = true) :
    ∃ k v, execNext s = respond .ok v (s.setGen (Gen.iter k s.gen)) := by
  obtain ⟨⟨g, v⟩, hloop⟩ := Option.ne_none_iff_exists'.mp (nextLoop_ne_none s.gen)
  obtain ⟨k, -, -, rfl, -⟩ := nextLoop_some hloop
  exact ⟨k + 1, zext64 v, by rw [execNext, whenSeeded_seeded h, hloop]⟩

/-- SEED is the only command that draws nothing. -/
theorem eq_seed_of_not_isDraw {i : Instr} (h : i.isDraw = false) : ∃ v, i = .seed v := by
  cases i with
  | seed v => exact ⟨v, rfl⟩
  | word | next31 | next | bool | u64 | i64 => cases h

theorem exec_draw_unseeded {i : Instr} {s : State} (hi : i.isDraw = true) (hs : s.seeded = false) :
    exec i s = raiseError .notSeeded s := by
  cases i with
  | seed v => cases hi
  | word | next31 | next | bool | u64 | i64 => exact whenSeeded_raises hs _

/-- Every draw but BOOL steps the generator and responds, and touches no other register (R63). -/
theorem exec_draw_seeded {i : Instr} {s : State} (hi : i.isDraw = true) (hb : i ≠ .bool) (hs : s.seeded = true) :
    ∃ k v, exec i s = respond .ok v (s.setGen (Gen.iter k s.gen)) := by
  cases i with
  | seed v => cases hi
  | bool => exact absurd rfl hb
  | next => exact execNext_seeded hs
  | word | next31 => exact ⟨1, _, whenSeeded_seeded hs _⟩
  | u64 | i64 => exact ⟨2, _, whenSeeded_seeded hs _⟩

/-- Everything one command can do: construct, refuse a draw without a seed, hand out a bit, or step the generator. -/
theorem exec_cases (i : Instr) (s : State) :
    (∃ v, i = .seed v ∧ exec i s =
      respond .ok 0#64 (((s.setGen (seededGen s.params v)).setCache 0#32 0#32).setSeeded)) ∨
    (i.isDraw = true ∧ s.seeded = false ∧ exec i s = raiseError .notSeeded s) ∨
    (i = .bool ∧ s.seeded = true ∧ exec i s =
      respond .ok (boolResult s.params.boolOneIsTrue s.refill.cachedBit) s.refill.shiftMask) ∨
    (i.isDraw = true ∧ i ≠ .bool ∧ s.seeded = true ∧
      ∃ k v, exec i s = respond .ok v (s.setGen (Gen.iter k s.gen))) := by
  cases hi : i.isDraw with
  | false =>
    obtain ⟨v, rfl⟩ := eq_seed_of_not_isDraw hi
    exact .inl ⟨v, rfl, rfl⟩
  | true =>
    cases hs : s.seeded with
    | false => exact .inr (.inl ⟨rfl, rfl, exec_draw_unseeded hi hs⟩)
    | true =>
      by_cases hb : i = .bool
      · subst hb
        exact .inr (.inr (.inl ⟨rfl, rfl, whenSeeded_seeded hs _⟩))
      · exact .inr (.inr (.inr ⟨rfl, hb, rfl, exec_draw_seeded hi hb hs⟩))

/-! ## Decoded words, commands and events -/

theorem opcode_of_decode {w : Command} {i : Instr} (h : decode w = .ok i) : cmdOp w = i.opcode := by
  unfold decode at h
  split_ifs at h with h1 h2 h3 h4 h5 h6 h7 <;> cases h <;> assumption

theorem reserved_of_decode {w : Command} {e : DecodeError} (h : decode w = .error e) :
    cmdOp w = 0x0#4 ∨ 0x8#4 ≤ cmdOp w := by
  unfold decode at h
  split_ifs at h with h1 h2 h3 h4 h5 h6 h7
  bv_omega

theorem isDraw_eq_decide_opcode (i : Instr) : i.isDraw = decide (i.opcode ≠ 0x1#4) := by
  cases i <;> rfl

theorem runCommand_ok {w : Command} {i : Instr} (h : decode w = .ok i) (s : State) : runCommand w s = exec i s := by
  rw [runCommand, h]

theorem runCommand_reserved {w : Command} {op : Opcode} (h : decode w = .error (.illegalOp op)) (s : State) :
    runCommand w s = raiseError .illegalOp s := by
  rw [runCommand, h]; rfl

theorem step_command {s : State} {w : Command} {rest : List PortEvent} (h : s.inbox = .command w :: rest) :
    step s = runCommand w (s.setInbox rest) := by
  simp [step, State.takeEvent, h]

theorem step_anyReset {s : State} {rest : List PortEvent}
    (h : s.inbox = .reset :: rest ∨ ∃ w, s.inbox = .resetDuring w :: rest) :
    step s = .next (s.setInbox rest).applyReset := by
  rcases h with h | ⟨w, h⟩ <;> simp [step, State.takeEvent, h]

/-! ## The invariant (R5, R16, R17) -/

theorem refill_gen_nonZero {s : State} (h : s.gen.nonZero) : s.refill.gen.nonZero := by
  by_cases hm : s.bitMask = 0#32
  · rw [refill_empty hm]; exact h.next
  · rwa [refill_nonempty hm]

theorem raiseError_keeps_inv {c : Code} {s t : State} (h : s.Inv) (ht : raiseError c s = .next t) : t.Inv := by
  cases eq_send_of_respond ht
  exact ⟨h.params, h.gen, h.mask⟩

theorem exec_keeps_inv {i : Instr} {s t : State} (h : s.Inv) (ht : exec i s = .next t) : t.Inv := by
  rcases exec_cases i s with ⟨v, -, he⟩ | ⟨-, -, he⟩ | ⟨-, hs, he⟩ | ⟨-, -, hs, k, v, he⟩ <;> rw [he] at ht
  · cases eq_send_of_respond ht
    exact ⟨h.params, fun _ => seededGen_nonZero h.params v, maskLegal_zero⟩
  · exact raiseError_keeps_inv h ht
  · cases eq_send_of_respond ht
    exact ⟨by simpa using h.params, fun _ => refill_gen_nonZero (h.gen hs), h.mask.refill.ushiftRight_one⟩
  · cases eq_send_of_respond ht
    exact ⟨h.params, fun _ => (h.gen hs).iter k, h.mask⟩

theorem applyReset_inv {s : State} (hp : s.params.wf = true) : s.applyReset.Inv :=
  ⟨hp, nofun, maskLegal_zero⟩

/-- Settles O42: a step waits, runs a command, answers a reserved OP or resets, and each keeps the invariant. -/
theorem everyStepKeepsTheInvariant : Obligations.EveryStepKeepsTheInvariant := by
  intro s t h ht
  have port (rest : List PortEvent) : (s.setInbox rest).Inv := ⟨h.params, h.gen, h.mask⟩
  rcases step_cases s with ⟨-, hst⟩ | ⟨_, rest, _, -, -, hst⟩ | ⟨_, rest, _, -, -, hst⟩ | ⟨rest, -, hst⟩ <;>
    rw [hst] at ht
  · cases ht; exact h
  · exact exec_keeps_inv (port rest) ht
  · exact raiseError_keeps_inv (port rest) ht
  · cases ht; exact applyReset_inv h.params

theorem config_params_wf : Config.params.wf = true := by
  simp [Params.wf, Latency.wf, Config.params, nonZeroWord_ne_zero]

/-- Settles O43: the constants are non-zero by their form, SEEDED is 0 and the mask is 0. -/
theorem invariantHoldsAtReset : Obligations.InvariantHoldsAtReset :=
  ⟨config_params_wf, nofun, maskLegal_zero⟩

/-! ## What a command leaves unchanged -/

/-- Settles O49: each of the four things a command can do writes a few registers and sends one response. -/
theorem frameOfEveryCommand : Obligations.FrameOfEveryCommand := by
  intro i s t ht
  rcases exec_cases i s with ⟨v, rfl, he⟩ | ⟨hi, hs, he⟩ | ⟨rfl, -, he⟩ | ⟨hi, hb, -, k, v, he⟩ <;>
    rw [he] at ht <;> cases eq_send_of_respond ht
  · exact ⟨rfl, rfl, rfl, by simp, nofun, fun _ => rfl, nofun⟩
  · exact ⟨rfl, rfl, rfl, by simp, fun _ => rfl, by simp [hi, hs], fun _ _ => ⟨rfl, rfl⟩⟩
  · exact ⟨by simp, by simp, by simp, by simp, by simp, by simp,
      fun _ hm => by simp [refill_nonempty hm]⟩
  · exact ⟨rfl, rfl, rfl, by simp, fun _ => rfl, fun _ => rfl, fun h => absurd h hb⟩

theorem exec_params {i : Instr} {s t : State} (h : exec i s = .next t) : t.params = s.params := by
  obtain ⟨-, hp, -⟩ := frameOfEveryCommand i s t h
  exact hp

/-- Settles O47: by what one step can do. -/
theorem noStepChangesTheParameters : Obligations.NoStepChangesTheParameters := by
  intro s t ht
  rcases step_cases s with ⟨-, hst⟩ | ⟨_, rest, _, -, -, hst⟩ | ⟨_, rest, _, -, -, hst⟩ | ⟨rest, -, hst⟩ <;>
    rw [hst] at ht
  · cases ht; rfl
  · exact (exec_params ht).trans (setInbox_params s rest)
  · cases eq_send_of_respond ht; rfl
  · cases ht; rfl

/-! ## The flags after a command (R11, R12) -/

/-- What a command that starts in `s` and responds with CODE `c` has written in `s'` before its response: ERR is set on
an error and never cleared (R12), SEEDED is set where `seeds` says so and never cleared (R11). -/
structure AnswersWith (s : State) (seeds : Bool) (c : Code) (s' : State) : Prop where
  outbox : s'.outbox = s.outbox
  err : s'.err = (s.err || decide (c ≠ .ok))
  seeded : s'.seeded = (s.seeded || seeds)

/-- Every instruction responds; only SEED sets SEEDED, and a draw that finds it 0 answers NOT_SEEDED (R68). -/
theorem exec_answersWith (i : Instr) (s : State) :
    ∃ c v s', exec i s = respond c v s' ∧ AnswersWith s (!i.isDraw) c s' ∧
      (i.isDraw = true → s.seeded = false → c = .notSeeded) := by
  rcases exec_cases i s with ⟨v, rfl, he⟩ | ⟨hi, hs, he⟩ | ⟨rfl, hs, he⟩ | ⟨hi, -, hs, k, v, he⟩
  · exact ⟨_, _, _, he, ⟨rfl, by simp, by simp [Instr.isDraw]⟩, nofun⟩
  · exact ⟨_, _, _, he, ⟨rfl, by simp, by simp [hi]⟩, fun _ _ => rfl⟩
  · exact ⟨_, _, _, he, ⟨by simp, by simp, by simp [Instr.isDraw]⟩, by simp [hs]⟩
  · exact ⟨_, _, _, he, ⟨rfl, by simp, by simp [hi]⟩, by simp [hs]⟩

/-- Every command word is answered: as `exec_answersWith` says, or with ILLEGAL_OP. -/
theorem runCommand_answersWith (w : Command) (s : State) :
    ∃ c v s', runCommand w s = respond c v s' ∧ AnswersWith s (decide (cmdOp w = 0x1#4)) c s' ∧
      (s.seeded = false → 0x2#4 ≤ cmdOp w → cmdOp w ≤ 0x7#4 → c = .notSeeded) := by
  cases hd : decode w with
  | ok i =>
    obtain ⟨c, v, s', he, ha, hdraw⟩ := exec_answersWith i s
    have hop := opcode_of_decode hd
    refine ⟨c, v, s', (runCommand_ok hd s).trans he, ?_, fun hs h2 _ => hdraw ?_ hs⟩
    · simpa [isDraw_eq_decide_opcode, hop] using ha
    · rw [isDraw_eq_decide_opcode, ← hop, decide_eq_true_eq]
      bv_omega
  | error e =>
    obtain ⟨op⟩ := e
    have hop := reserved_of_decode hd
    have hseed : cmdOp w ≠ 0x1#4 := by bv_omega
    refine ⟨_, _, _, runCommand_reserved hd s, ⟨rfl, by simp, by simp [hseed]⟩, fun _ h2 h7 => ?_⟩
    bv_omega

@[simp] theorem statusBits_err (e d : Bool) : (statusBits e d).getLsbD 1 = e := by cases e <;> cases d <;> rfl

@[simp] theorem statusBits_seeded (e d : Bool) : (statusBits e d).getLsbD 0 = d := by cases e <;> cases d <;> rfl

/-- Settles O38: every command's answer sets ERR exactly on an error. -/
theorem errIsStickyUntilReset : Obligations.ErrIsStickyUntilReset := by
  refine ⟨fun s t w rest ht => ?_, fun s t rest ht => ?_⟩
  · obtain ⟨c, v, s', he, ha, -⟩ := runCommand_answersWith w (s.setInbox rest)
    rw [step_accepting, he] at ht
    cases eq_send_of_respond ht
    exact ⟨_, congrArg (· ++ _) ha.outbox, ha.err, statusBits_err _ _⟩
  · rw [step_reset] at ht
    cases ht; rfl

/-- Settles O39: every command's answer sets SEEDED exactly on SEED. -/
theorem seededIsSetBySeedAndClearedByReset : Obligations.SeededIsSetBySeedAndClearedByReset := by
  refine ⟨fun s t w rest ht => ?_, fun s t rest ht => ?_⟩
  · obtain ⟨c, v, s', he, ha, hdraw⟩ := runCommand_answersWith w (s.setInbox rest)
    rw [step_accepting, he] at ht
    cases eq_send_of_respond ht
    exact ⟨_, congrArg (· ++ _) ha.outbox, ha.seeded, statusBits_seeded _ _, hdraw⟩
  · rw [step_reset] at ht
    cases ht; rfl

/-! ## The generator of an unseeded block (R18) -/

/-- No step stops (R55, R70, R88). -/
theorem step_answers (s : State) : ∃ t, step s = .next t := by
  rcases step_cases s with ⟨-, hst⟩ | ⟨_, rest, i, -, -, hst⟩ | ⟨_, rest, _, -, -, hst⟩ | ⟨rest, -, hst⟩
  · exact ⟨_, hst⟩
  · obtain ⟨c, v, s', he, -⟩ := exec_answersWith i (s.setInbox rest)
    exact ⟨_, hst.trans he⟩
  · exact ⟨_, hst⟩
  · exact ⟨_, hst⟩

/-- `u` is `t` but for the X, Y, Z and W of a block without a seed. -/
def AgreeUpToUnseededGen (t u : State) : Prop := u = t.setGen u.gen ∧ (t.seeded = true → u = t)

theorem AgreeUpToUnseededGen.refl (t : State) : AgreeUpToUnseededGen t t := ⟨rfl, fun _ => rfl⟩

/-- Before any SEED another generator is no difference that counts. -/
theorem agree_setGen {t : State} (g : Gen) (h : t.seeded = false) : AgreeUpToUnseededGen t (t.setGen g) :=
  ⟨rfl, fun h' => absurd h' (by simp [h])⟩

theorem raiseError_agree (c : Code) {s : State} (g : Gen) (h : s.seeded = false) :
    ∃ t u, raiseError c s = .next t ∧ raiseError c (s.setGen g) = .next u ∧ AgreeUpToUnseededGen t u :=
  ⟨_, _, raiseError_eq c s, raiseError_eq c (s.setGen g), agree_setGen g h⟩

/-- Without a seed a draw fails before it reads the generator, and SEED overwrites it. -/
theorem exec_agree (i : Instr) {s : State} (g : Gen) (h : s.seeded = false) :
    ∃ t u, exec i s = .next t ∧ exec i (s.setGen g) = .next u ∧ AgreeUpToUnseededGen t u := by
  cases hi : i.isDraw with
  | false =>
    obtain ⟨v, rfl⟩ := eq_seed_of_not_isDraw hi
    exact ⟨_, _, rfl, rfl, .refl _⟩
  | true =>
    rw [exec_draw_unseeded hi h, exec_draw_unseeded hi (s := s.setGen g) h]
    exact raiseError_agree _ g h

theorem step_agree_setGen {s : State} (g : Gen) (h : s.seeded = false) :
    ∃ t u, step s = .next t ∧ step (s.setGen g) = .next u ∧ AgreeUpToUnseededGen t u := by
  rcases step_cases s with ⟨hp, hst⟩ | ⟨w, rest, i, hp, hd, hst⟩ | ⟨w, rest, op, hp, hd, hst⟩ | ⟨rest, hp, hst⟩
  · exact ⟨_, _, hst, step_waiting hp, agree_setGen g h⟩
  · rw [hst, step_command (s := s.setGen g) hp, runCommand_ok hd]
    exact exec_agree (s := s.setInbox rest) i g h
  · rw [hst, step_command (s := s.setGen g) hp, runCommand_reserved hd]
    exact raiseError_agree (s := s.setInbox rest) _ g h
  · exact ⟨_, _, hst, step_anyReset (s := s.setGen g) hp, .refl _⟩

theorem AgreeUpToUnseededGen.step {s r : State} (h : AgreeUpToUnseededGen s r) :
    ∃ t u, step s = .next t ∧ step r = .next u ∧ AgreeUpToUnseededGen t u := by
  obtain ⟨hgen, hsame⟩ := h
  cases hs : s.seeded with
  | false => rw [hgen]; exact step_agree_setGen r.gen hs
  | true =>
    obtain ⟨t, ht⟩ := step_answers s
    exact ⟨t, t, ht, hsame hs ▸ ht, .refl t⟩

theorem AgreeUpToUnseededGen.runFor (k : Nat) {s r : State} (h : AgreeUpToUnseededGen s r) :
    ∃ t u, runFor k s = .next t ∧ runFor k r = .next u ∧ AgreeUpToUnseededGen t u := by
  induction k generalizing s r with
  | zero => exact ⟨s, r, rfl, rfl, h⟩
  | succ k ih =>
    obtain ⟨s', r', hs, hr, h'⟩ := h.step
    simpa [Machine.runFor, hs, hr] using ih h'

/-- Settles O45: two runs that agree up to the generator of an unseeded block keep agreeing, and `visible` reads no
generator. -/
theorem unseededGeneratorIsUnobservable : Obligations.UnseededGeneratorIsUnobservable := by
  intro es s g hs
  obtain ⟨t, u, ht, hu, hgen, hsame⟩ :=
    (agree_setGen (t := s.setInbox es) g hs).runFor es.length
  exact ⟨t, u, ht, hu, (congrArg State.visible hgen).trans rfl, hgen, hsame⟩

end Sys2Proof.Machine
end

section
/-! PROOFS. The statements about ordering and byte streams (spec/20_memory.md): a step does not read what comes after
its event, so runs compose; the bytes of words; the run of `WORD` commands and the stream built from it. -/

namespace Sys2Proof.Machine

/-! ## A step reads no event but its own (R25, R27) -/

theorem refill_setInbox (s : State) (es : List PortEvent) : (s.setInbox es).refill = s.refill.setInbox es := by
  by_cases h : s.bitMask = 0#32
  · rw [refill_empty h, refill_empty (s := s.setInbox es) h]; rfl
  · rw [refill_nonempty h, refill_nonempty (s := s.setInbox es) h]

/-- A command does the same whatever is still to come. -/
theorem exec_setInbox {i : Instr} {s t : State} (h : exec i s = .next t) (es : List PortEvent) :
    exec i (s.setInbox es) = .next (t.setInbox es) := by
  cases hi : i.isDraw with
  | false =>
    obtain ⟨v, rfl⟩ := eq_seed_of_not_isDraw hi
    cases h; rfl
  | true =>
    cases hs : s.seeded with
    | false =>
      cases (exec_draw_unseeded hi hs).symm.trans h
      exact exec_draw_unseeded (s := s.setInbox es) hi hs
    | true =>
      have guard (body : Result) : whenSeeded (s.setInbox es) body = body :=
        whenSeeded_seeded (s := s.setInbox es) hs body
      cases i with
      | seed v => cases hi
      | word | next31 | u64 | i64 =>
        cases (whenSeeded_seeded hs _).symm.trans h
        exact guard _
      | next =>
        obtain ⟨⟨g, v⟩, hloop⟩ := Option.ne_none_iff_exists'.mp (nextLoop_ne_none s.gen)
        rw [exec, execNext, whenSeeded_seeded hs, hloop] at h
        cases h
        rw [exec, execNext, guard, setInbox_gen, hloop]; rfl
      | bool =>
        cases (whenSeeded_seeded hs _).symm.trans h
        rw [exec, execBool, guard, refill_setInbox]; rfl

/-- An event does one thing, whatever is still to come. -/
theorem step_setInbox_cons (e : PortEvent) (s : State) :
    ∃ t : State, ∀ es, step (s.setInbox (e :: es)) = .next (t.setInbox es) := by
  cases e with
  | command w =>
    cases hd : decode w with
    | ok i =>
      obtain ⟨c, v, s', he, -⟩ := exec_answersWith i s
      exact ⟨_, fun es => (runCommand_ok hd _).trans (exec_setInbox he es)⟩
    | error e =>
      obtain ⟨op⟩ := e
      exact ⟨s.setErr.send { code := .illegalOp, status := statusBits true s.seeded, result := 0#64 },
        fun es => runCommand_reserved hd (s.setInbox es)⟩
  | reset | resetDuring w => exact ⟨s.applyReset, fun _ => rfl⟩

/-! ## Runs, event by event (R27) -/

theorem runEvents_nil (s : State) : runEvents [] s = .next (s.setInbox []) := rfl

theorem runEvents_setInbox (es fs : List PortEvent) (s : State) : runEvents es (s.setInbox fs) = runEvents es s := rfl

theorem runEvents_cons {e : PortEvent} {es : List PortEvent} {s t : State}
    (h : step (s.setInbox (e :: es)) = .next (t.setInbox es)) : runEvents (e :: es) s = runEvents es t := by
  simp only [runEvents, List.length_cons, runFor, h]

/-- Settles O10: by induction on the first list, whose first event does one thing in both runs. -/
theorem runsComposeInAcceptanceOrder : Obligations.RunsComposeInAcceptanceOrder := by
  intro es fs s t h
  induction es generalizing s with
  | nil =>
    rw [runEvents_nil] at h
    cases h
    rw [runEvents_setInbox, List.nil_append]
  | cons e es ih =>
    obtain ⟨s', hstep⟩ := step_setInbox_cons e s
    rw [runEvents_cons (hstep es)] at h
    rw [List.cons_append, runEvents_cons (hstep _)]
    exact ih s' h

/-! ## The bytes of words and of 64-bit results (R21, R23) -/

@[simp] theorem length_bytesOfWord (v : Word) : (bytesOfWord v).length = 4 := rfl

theorem bytesOfLong_concat64 (hi lo : Word) : bytesOfLong (concat64 hi lo) = bytesOfWord lo ++ bytesOfWord hi := by
  have low {k : Nat} (hk : k + 8 ≤ 32) : (concat64 hi lo).extractLsb' k 8 = lo.extractLsb' k 8 :=
    BitVec.extractLsb'_append_eq_of_add_le hk
  have high {k : Nat} (hk : 32 ≤ k) : (concat64 hi lo).extractLsb' k 8 = hi.extractLsb' (k - 32) 8 :=
    BitVec.extractLsb'_append_eq_of_le hk
  simp [bytesOfLong, bytesOfWord, low, high]

/-- The bytes of a word are its digits to base 256. -/
theorem foldr_bytesOfWord (v : Word) : (bytesOfWord v).foldr (fun b n => b.toNat + 256 * n) 0 = v.toNat := by
  have := v.isLt
  simp only [bytesOfWord, List.foldr, BitVec.extractLsb'_toNat, Nat.shiftRight_eq_div_pow]
  omega

/-- Settles O50: byte k is the shift by 8k cut to 8 bits, and `{hi, lo}` splits at bit 32. -/
theorem bytesAreLittleEndian : Obligations.BytesAreLittleEndian := by
  refine ⟨fun v => ?_, fun v => ?_, bytesOfLong_concat64, foldr_bytesOfWord⟩
  · simp only [BitVec.setWidth_ushiftRight_eq_extractLsb]; rfl
  · simp only [BitVec.setWidth_ushiftRight_eq_extractLsb]; rfl

/-! ## The stream of the rule (R22) -/

/-- Whole words give their bytes in the order drawn, one generator step each. -/
theorem drawWordBytes_eq (k : Nat) (g : Gen) :
    drawWordBytes k g = ((List.range k).flatMap fun j => bytesOfWord (Gen.iter (j + 1) g).w, Gen.iter k g) := by
  induction k generalizing g with
  | zero => rfl
  | succ k ih => simp only [drawWordBytes, ih, List.range_succ_eq_map, List.flatMap_cons, List.flatMap_map]; rfl

theorem length_drawWordBytes (k : Nat) (g : Gen) : (drawWordBytes k g).1.length = 4 * k := by
  simp [drawWordBytes_eq, List.length_flatMap, Nat.mul_comm]

/-- The last of `k + 1` whole words, taken apart at the other end. -/
theorem drawWordBytes_succ_last (k : Nat) (g : Gen) :
    drawWordBytes (k + 1) g =
      ((drawWordBytes k g).1 ++ bytesOfWord (drawWordBytes k g).2.next.w, (drawWordBytes k g).2.next) := by
  simp [drawWordBytes_eq, List.range_succ, iter_succ_last]

/-- The stream of `n` bytes is the first `n` bytes of `ceil(n / 4)` whole words: the high bytes of the last word are
what is discarded. -/
theorem drawBytes_eq_take (n : Nat) (g : Gen) :
    drawBytes n g = ((drawWordBytes (wordsForBytes n) g).1.take n, (drawWordBytes (wordsForBytes n) g).2) := by
  have hlen := length_drawWordBytes (n / 4) g
  by_cases hr : n % 4 = 0
  · have hw : wordsForBytes n = n / 4 := by unfold wordsForBytes; omega
    rw [drawBytes, if_pos hr, hw, List.take_of_length_le (by omega)]
  · have hw : wordsForBytes n = n / 4 + 1 := by unfold wordsForBytes; omega
    rw [drawBytes, if_neg hr, hw, drawWordBytes_succ_last, List.take_append, hlen,
      List.take_of_length_le (l := (drawWordBytes (n / 4) g).1) (by omega), show n - 4 * (n / 4) = n % 4 by omega]

theorem length_drawBytes (n : Nat) (g : Gen) : (drawBytes n g).1.length = n := by
  rw [drawBytes_eq_take, List.length_take, length_drawWordBytes, wordsForBytes]
  omega

/-! ## The run of `WORD` commands (R48) and its stream -/

/-- The response of `WORD` in a seeded block with the given ERR, when the step leads to `g`. -/
def wordResponse (err : Bool) (g : Gen) : Response where
  code := .ok
  status := statusBits err true
  result := zext64 g.w

theorem exec_word_seeded {s : State} (h : s.seeded = true) :
    exec .word s = .next ((s.setGen s.gen.next).send (wordResponse s.err s.gen.next)) := by
  rw [exec, execWord, whenSeeded_seeded h, respond_eq, advance_eq, setGen_seeded, h]
  rfl

theorem runInstrs_word_cons {s : State} (h : s.seeded = true) (is : List Instr) :
    runInstrs (.word :: is) s = runInstrs is ((s.setGen s.gen.next).send (wordResponse s.err s.gen.next)) :=
  runEvents_cons (exec_word_seeded (s := s.setInbox _) h)

/-- `k` WORD commands step the generator `k` times and answer the words in order. -/
theorem runInstrs_replicate_word (k : Nat) {s : State} (h : s.seeded = true) :
    ∃ t, runInstrs (List.replicate k .word) s = .next t ∧ t.gen = Gen.iter k s.gen ∧
      t.outbox = s.outbox ++ (List.range k).map fun j => wordResponse s.err (Gen.iter (j + 1) s.gen) := by
  induction k generalizing s with
  | zero => exact ⟨_, rfl, rfl, (List.append_nil _).symm⟩
  | succ k ih =>
    obtain ⟨t, hrun, hgen, hout⟩ := ih (s := (s.setGen s.gen.next).send (wordResponse s.err s.gen.next)) h
    refine ⟨t, (runInstrs_word_cons h _).trans hrun, hgen, hout.trans ?_⟩
    simp only [List.range_succ_eq_map, List.map_cons, List.map_map, send_outbox, List.append_assoc]
    rfl

/-- The requester's stream, built from the RESULTs of the words drawn, is the first `n` of their bytes. -/
theorem streamOfResults_wordResponses (n k : Nat) (err : Bool) (g : Gen) :
    streamOfResults n (((List.range k).map fun j => wordResponse err (Gen.iter (j + 1) g)).map Response.result) =
      (drawWordBytes k g).1.take n := by
  have low (v : Word) : (zext64 v).setWidth 32 = v := by
    rw [zext64, BitVec.setWidth_setWidth_of_le v (by decide), BitVec.setWidth_eq]
  simp only [streamOfResults, List.map_map, List.flatMap_map, drawWordBytes_eq, Function.comp_apply, wordResponse, low]

/-- Settles O51: BYTES n is ceil(n / 4) WORD commands, and the rule's stream is the first n bytes of their words. -/
theorem byteStreamTakesCeilQuarterWords : Obligations.ByteStreamTakesCeilQuarterWords := by
  intro n s hs
  obtain ⟨t, hrun, hgen, hout⟩ := runInstrs_replicate_word (wordsForBytes n) hs
  have hstream : (drawBytes n s.gen).1 = (drawWordBytes (wordsForBytes n) s.gen).1.take n := by
    rw [drawBytes_eq_take]
  have hstate : (drawBytes n s.gen).2 = Gen.iter (wordsForBytes n) s.gen := by
    rw [drawBytes_eq_take, drawWordBytes_eq]
  refine ⟨t, hrun, ?_, hgen.trans hstate.symm, hgen, length_drawBytes n s.gen⟩
  rw [hout, List.drop_left, streamOfResults_wordResponses, hstream]

end Sys2Proof.Machine
end

section
/-! PROOFS. The statements about encoding (spec/30_encoding.md): the fields of command and response words, the decoder
and the encoder, the step of a decoded command, the seed argument, and what source commands assemble to. -/

namespace Sys2Proof.Machine

/-! ## Command words and the decoder (R32, R34, R38) -/

/-- Every word is made of its two fields. -/
theorem mkCommand_cmdArg_cmdOp (w : Command) : mkCommand (cmdArg w) (cmdOp w) = w := by
  apply BitVec.eq_of_getLsbD_eq
  intro i hi
  rw [getLsbD_mkCommand]
  by_cases h : i < 4
  · simp [cmdOp, h]
  · simp [cmdArg, h, show i - 4 < 32 by omega, show 4 + (i - 4) = i by omega]

theorem toNat_mkCommand (a : Word) (op : Opcode) : (mkCommand a op).toNat = 16 * a.toNat + op.toNat := by
  rw [mkCommand, BitVec.toNat_append, ← Nat.shiftLeft_add_eq_or_of_lt op.isLt, Nat.shiftLeft_eq, Nat.mul_comm]

/-- Settles O1: by the fields of a command word. -/
theorem commandWordIsArgThenOp : Obligations.CommandWordIsArgThenOp :=
  ⟨fun a op => ⟨toNat_mkCommand a op, cmdArg_mkCommand a op, cmdOp_mkCommand a op⟩, mkCommand_cmdArg_cmdOp⟩

/-- A reserved OP fails all seven tests of the decoder (R37). -/
theorem decode_reserved {w : Command} (h : cmdOp w = 0x0#4 ∨ 0x8#4 ≤ cmdOp w) :
    decode w = .error (.illegalOp (cmdOp w)) := by
  have other (k : Opcode) (h1 : 0x1#4 ≤ k) (h7 : k ≤ 0x7#4) : cmdOp w ≠ k := by bv_omega
  simp [decode, other]

/-- Settles O2: an OP in 0x1 to 0x7 fails the decoder's tests before its own; a reserved one fails them all. -/
theorem everyCommandWordDecodesByItsOp : Obligations.EveryCommandWordDecodesByItsOp := by
  intro w
  refine ⟨?_, ?_, ?_, ?_, ?_, ?_, ?_, decode_reserved⟩ <;> intro h <;> simp [decode, h]

theorem decode_encodeWith (a : Word) (i : Instr) : decode (encodeWith a i) = .ok i := by
  obtain ⟨seed, word, next31, next, bool, u64, i64, -⟩ := everyCommandWordDecodesByItsOp (encodeWith a i)
  have op (b : Word) (k : Opcode) : cmdOp (mkCommand b k) = k := cmdOp_mkCommand b k
  cases i with
  | seed v => rw [seed (op v _), encodeWith, cmdArg_mkCommand]
  | word => exact word (op a _)
  | next31 => exact next31 (op a _)
  | next => exact next (op a _)
  | bool => exact bool (op a _)
  | u64 => exact u64 (op a _)
  | i64 => exact i64 (op a _)

/-- The operand of a decoded SEED is the word's ARG field. -/
theorem cmdArg_of_decode_seed {w : Command} {v : Word} (h : decode w = .ok (.seed v)) : cmdArg w = v := by
  obtain ⟨seed, -⟩ := everyCommandWordDecodesByItsOp w
  cases (seed (opcode_of_decode h)).symm.trans h
  rfl

/-- An instruction's word is `{ARG, OP}`, where ARG is free for every instruction but SEED (R33). -/
theorem encodeWith_eq_mkCommand {a : Word} {i : Instr} (h : ∀ v, i = .seed v → a = v) :
    encodeWith a i = mkCommand a i.opcode := by
  cases i with
  | seed v => rw [h v rfl]; rfl
  | word | next31 | next | bool | u64 | i64 => rfl

/-- Settles O3: the encoder writes the OP the decoder tests for, and a decoded word is made of its ARG and the OP of its
instruction, whose operand, where it has one, is that ARG. -/
theorem decodeAndEncodeAgree : Obligations.DecodeAndEncodeAgree := by
  refine ⟨fun i a => decode_encodeWith a i, fun i w h => ?_⟩
  calc encodeWith (cmdArg w) i
      = mkCommand (cmdArg w) i.opcode := encodeWith_eq_mkCommand fun v hv => cmdArg_of_decode_seed (hv ▸ h)
    _ = mkCommand (cmdArg w) (cmdOp w) := by rw [opcode_of_decode h]
    _ = w := mkCommand_cmdArg_cmdOp w

/-! ## The response word (R35, R37) -/

theorem extractLsb'_pack_code (r : Response) : r.pack.extractLsb' 0 2 = r.code.bits :=
  BitVec.extractLsb'_append_eq_right

theorem extractLsb'_pack_status (r : Response) : r.pack.extractLsb' 2 2 = r.status := by
  rw [Response.pack, BitVec.extractLsb'_append_eq_of_le (by decide)]
  exact BitVec.extractLsb'_append_eq_right

theorem extractLsb'_pack_result (r : Response) : r.pack.extractLsb' 4 64 = r.result := by
  rw [Response.pack, BitVec.extractLsb'_append_eq_of_le (by decide)]
  exact BitVec.extractLsb'_append_eq_left

/-- A response word is fixed by its three fields. -/
theorem pack_eq_of_fields {r : Response} {v : BitVec 68} (hc : r.code.bits = v.extractLsb' 0 2)
    (hs : r.status = v.extractLsb' 2 2) (hr : r.result = v.extractLsb' 4 64) : r.pack = v := by
  apply BitVec.eq_of_getLsbD_eq
  intro i hi
  rw [getLsbD_pack, hc, hs, hr]
  by_cases h2 : i < 2
  · simp [h2]
  · by_cases h4 : i < 4
    · simp [h2, h4, show i - 2 < 2 by omega, show 2 + (i - 2) = i by omega]
    · simp [h2, h4, show i - 4 < 64 by omega, show 4 + (i - 4) = i by omega]

theorem codeBits_ne_three (c : Code) : c.bits ≠ 3#2 := by
  cases c <;> decide

theorem codeOfBits_eq_some_iff {b : BitVec 2} {c : Code} : Code.ofBits b = some c ↔ c.bits = b := by
  constructor
  · intro h
    unfold Code.ofBits at h
    split_ifs at h with h0 h1 h2 <;> cases h <;> exact Eq.symm ‹_›
  · rintro rfl
    cases c <;> rfl

/-- A requester reads exactly the response that the block packed. -/
theorem unpack_eq_some_iff {v : BitVec 68} {r : Response} : Response.unpack v = some r ↔ r.pack = v := by
  constructor
  · intro h
    unfold Response.unpack at h
    split at h
    · next c hc =>
      cases h
      exact pack_eq_of_fields (codeOfBits_eq_some_iff.mp hc) rfl rfl
    · cases h
  · rintro rfl
    have hc : Code.ofBits r.code.bits = some r.code := codeOfBits_eq_some_iff.mpr rfl
    simp only [Response.unpack, extractLsb'_pack_code, extractLsb'_pack_status, extractLsb'_pack_result, hc]

/-- Settles O5: packing and unpacking are inverse, so a word whose CODE is no response's unpacks to nothing. -/
theorem responseWordRoundTrips : Obligations.ResponseWordRoundTrips := by
  refine ⟨fun r => ⟨extractLsb'_pack_code r, extractLsb'_pack_status r, extractLsb'_pack_result r,
    codeBits_ne_three r.code, unpack_eq_some_iff.mpr rfl⟩, fun v h3 => ?_, fun _ _ => unpack_eq_some_iff.mp⟩
  rw [Option.eq_none_iff_forall_ne_some]
  intro r h
  rw [← unpack_eq_some_iff.mp h, extractLsb'_pack_code] at h3
  exact codeBits_ne_three r.code h3

/-! ## The step of a command (R35, R38) -/

/-- Settles O6: the step is the command's run. -/
theorem stepRunsTheDecodedCommand : Obligations.StepRunsTheDecodedCommand :=
  fun s w rest _ h => (step_accepting s w rest).trans (runCommand_ok h _)

theorem decode_tableCommand {nbits w : Nat} {i : Instr} (h : decodeTableWord nbits w = some i) :
    decode (tableCommand nbits w) = .ok i := by
  unfold decodeTableWord at h
  split at h
  · next j hj => cases h; exact hj
  · cases h

/-- Settles O7: the placed word is a command at the port, with the port's other events after it. -/
theorem placedTableWordRunsNext : Obligations.PlacedTableWordRunsNext :=
  fun s w i h => stepRunsTheDecodedCommand s (tableCommand 36 w) s.inbox i (decode_tableCommand h)

/-- Every instruction responds, and before that touches neither the port nor its record; an error has RESULT 0. -/
theorem exec_responds (i : Instr) (s : State) :
    ∃ c v s', exec i s = respond c v s' ∧ s'.inbox = s.inbox ∧ s'.outbox = s.outbox ∧ (c ≠ .ok → v = 0#64) := by
  rcases exec_cases i s with ⟨_, -, he⟩ | ⟨-, -, he⟩ | ⟨-, -, he⟩ | ⟨-, -, -, k, _, he⟩
  · exact ⟨_, _, _, he, rfl, rfl, fun _ => rfl⟩
  · exact ⟨_, _, _, he, rfl, rfl, fun _ => rfl⟩
  · exact ⟨_, _, _, he, refill_inbox s, refill_outbox s, fun h => absurd rfl h⟩
  · exact ⟨_, _, _, he, rfl, rfl, fun h => absurd rfl h⟩

/-- Beside what `runCommand_answersWith` says of the flags: the port stays, and an error has RESULT 0 (R35). -/
theorem runCommand_responds (w : Command) (s : State) :
    ∃ c v s', runCommand w s = respond c v s' ∧ s'.inbox = s.inbox ∧ s'.outbox = s.outbox ∧ (c ≠ .ok → v = 0#64) := by
  cases hd : decode w with
  | ok i => rw [runCommand_ok hd]; exact exec_responds i s
  | error e => exact ⟨_, _, _, runCommand_reserved hd s, rfl, rfl, fun _ => rfl⟩

/-- Settles O12: every command word ends in one `respond`. -/
theorem everyCommandGetsOneResponse : Obligations.EveryCommandGetsOneResponse := by
  intro s w rest
  obtain ⟨c, v, s', he, hin, hout, hzero⟩ := runCommand_responds w (s.setInbox rest)
  refine ⟨_, { code := c, status := s'.status, result := v }, he, hin, congrArg (· ++ _) hout, rfl, hzero, rfl, ?_⟩
  cases c <;> simp [Code.bits]

/-! ## The seed argument (R33) -/

theorem toNat_seedArg (v : Int) : ((seedArg v).toNat : Int) = v % 2 ^ 32 := by
  rw [seedArg, BitVec.toNat_ofInt, Int.toNat_of_nonneg (Int.emod_nonneg v (by decide))]
  rfl

theorem s32_seedArg {v : Int} (hlo : -2147483648 ≤ v) (hhi : v ≤ 2147483647) : s32 (seedArg v) = v :=
  BitVec.toInt_ofInt_eq_self (by decide) hlo (Int.lt_of_le_of_lt hhi (by decide))

/-- Only SEED's word decodes by its ARG. -/
theorem decode_mkCommand_of_ne_seed {op : Opcode} (h : op ≠ 0x1#4) (a b : Word) :
    decode (mkCommand a op) = decode (mkCommand b op) := by
  simp only [decode, cmdOp_mkCommand, if_neg h]

/-- Settles O41: SEED's word decodes to SEED with its ARG, which becomes X, and any other word by its OP alone. -/
theorem onlySeedReadsItsArgument : Obligations.OnlySeedReadsItsArgument := by
  refine ⟨fun _ => s32_seedArg, toNat_seedArg, fun s v rest => ?_, fun s a b op rest hop => ?_⟩
  · exact ⟨_, stepRunsTheDecodedCommand s _ rest _ (decode_encodeWith 0#32 (.seed v)), rfl⟩
  · rw [step_accepting, step_accepting, runCommand, runCommand, decode_mkCommand_of_ne_seed hop a b]

/-! ## The assembler (R39, R40) -/

theorem assemble_of_wf {c : SourceCmd} (h : c.wf = true) : assemble c = .ok ((expand c).map encode) := if_pos h

theorem seedOperandOk_iff {v : Int} : seedOperandOk v = true ↔ -2147483648 ≤ v ∧ v ≤ 4294967295 := by
  simp [seedOperandOk]

theorem assemble_seed_outOfRange {v : Int} (h : v < -2147483648 ∨ 4294967295 < v) :
    assemble (.seed v) = .error .outOfRange := by
  refine if_neg fun hwf => ?_
  have := seedOperandOk_iff.mp hwf
  omega

theorem assemble_seed {v : Int} (hlo : -2147483648 ≤ v) (hhi : v ≤ 4294967295) :
    assemble (.seed v) = .ok [mkCommand (seedArg v) 0x1#4] :=
  assemble_of_wf (seedOperandOk_iff.mpr ⟨hlo, hhi⟩)

/-- Settles O52: a command without an operand is assembled by its row of the tables of R34 and R39, and SEED by the
range of its operand. -/
theorem aliasesAndSeedOperandsAssemble : Obligations.AliasesAndSeedOperandsAssemble :=
  ⟨rfl, rfl, rfl, rfl, rfl, rfl, rfl, rfl, rfl, rfl, rfl, rfl, rfl, rfl, rfl, rfl, rfl, rfl,
    fun _ => assemble_seed_outOfRange,
    fun v hlo hhi => ⟨seedArg v, toNat_seedArg v, assemble_seed hlo hhi⟩⟩

theorem encode_word : encode .word = 0x000000002#36 := by decide

/-- Settles O53: both pseudo-commands are repeated WORD commands, each encoded alike. -/
theorem pseudoCommandsExpandToWords : Obligations.PseudoCommandsExpandToWords := by
  intro n
  refine ⟨rfl, rfl, (assemble_of_wf rfl).trans ?_, (assemble_of_wf rfl).trans ?_⟩ <;>
    simp [expand, wordsForBytes, encode_word]

end Sys2Proof.Machine
end

section
/-! PROOFS. The statements about construction (spec/40_construction.md): SEED, and two runs from the same seed. A command
reads nothing of the state but the generator, the cache, SEEDED and the parameters, so two blocks that agree there
answer alike and agree there again. -/

namespace Sys2Proof.Machine

/-! ## SEED (R42) -/

/-- Settles O21: by SEED's meaning, with the constants that the block's parameters give. -/
theorem seedConstructsTheGenerator : Obligations.SeedConstructsTheGenerator :=
  fun v _ => ⟨rfl, decode_encodeWith 0#32 (.seed v), rfl⟩

/-- Settles O22: what the second SEED writes is what the first one wrote. -/
theorem secondEqualSeedChangesNoRegister : Obligations.SecondEqualSeedChangesNoRegister := by
  intro v s t h
  obtain ⟨-, -, first⟩ := seedConstructsTheGenerator v s
  obtain ⟨-, -, second⟩ := seedConstructsTheGenerator v t
  cases first.symm.trans h
  exact second

/-- Settles O4: eight of the words are the encoder's words of their commands, and the OP of the other two is reserved. -/
theorem writtenOutWordsDecode : Obligations.WrittenOutWordsDecode :=
  ⟨decode_encodeWith 0#32 (.seed 42#32), decode_encodeWith 0#32 (.seed 0xFFFFFFFF#32),
    decode_encodeWith 0x12345678#32 .word, decode_encodeWith 0#32 .next31, decode_encodeWith 0#32 .next,
    decode_encodeWith 0#32 .bool, decode_encodeWith 0#32 .u64, decode_encodeWith 0#32 .i64,
    decode_reserved (.inl (by decide)), decode_reserved (.inr (by decide))⟩

/-! ## Two blocks that agree in all that a command reads -/

/-- The two states agree in everything a command reads but ERR, which it only shows in STATUS. -/
structure SameRegisters (s₁ s₂ : State) : Prop where
  gen : s₁.gen = s₂.gen
  bitBuf : s₁.bitBuf = s₂.bitBuf
  bitMask : s₁.bitMask = s₂.bitMask
  seeded : s₁.seeded = s₂.seeded
  params : s₁.params = s₂.params

/-- Since `s₁` and `s₂` the two blocks have sent the same codes and results, and the same whole responses if ERR was
the same; they now stand at `t₁` and `t₂`, which agree in the registers. -/
structure AnsweredAlike (s₁ s₂ t₁ t₂ : State) : Prop where
  registers : SameRegisters t₁ t₂
  responses : ∃ rs₁ rs₂, t₁.outbox = s₁.outbox ++ rs₁ ∧ t₂.outbox = s₂.outbox ++ rs₂ ∧
    rs₁.map (fun r => (r.code, r.result)) = rs₂.map (fun r => (r.code, r.result)) ∧
    (s₁.err = s₂.err → t₁.err = t₂.err ∧ rs₁ = rs₂)

/-- From `s₁` and `s₂` the commands whose results are `r₁` and `r₂` lead to next states, answered alike. -/
def ResultsAlike (s₁ s₂ : State) (r₁ r₂ : Result) : Prop :=
  ∃ t₁ t₂, r₁ = .next t₁ ∧ r₂ = .next t₂ ∧ AnsweredAlike s₁ s₂ t₁ t₂

section TwoBlocks
variable {s₁ s₂ t₁ t₂ u₁ u₂ : State}

theorem SameRegisters.setGen (h : SameRegisters s₁ s₂) (g : Gen) : SameRegisters (s₁.setGen g) (s₂.setGen g) :=
  { h with gen := rfl }

theorem SameRegisters.refill (h : SameRegisters s₁ s₂) : SameRegisters s₁.refill s₂.refill := by
  by_cases hm : s₂.bitMask = 0#32
  · rw [refill_empty hm, refill_empty (h.bitMask.trans hm), h.gen]
    exact { h with gen := rfl, bitBuf := rfl, bitMask := rfl }
  · rwa [refill_nonempty hm, refill_nonempty (h.bitMask ▸ hm)]

theorem SameRegisters.cachedBit (h : SameRegisters s₁ s₂) : s₁.cachedBit = s₂.cachedBit := by
  rw [State.cachedBit, State.cachedBit, h.bitBuf, h.bitMask]

theorem SameRegisters.shiftMask (h : SameRegisters s₁ s₂) : SameRegisters s₁.shiftMask s₂.shiftMask :=
  { h with bitMask := congrArg (fun m : Word => m >>> 1) h.bitMask }

theorem SameRegisters.answeredAlike (h : SameRegisters s₁ s₂) : AnsweredAlike s₁ s₂ s₁ s₂ :=
  ⟨h, [], [], by simp, by simp, rfl, fun he => ⟨he, rfl⟩⟩

theorem AnsweredAlike.trans (h : AnsweredAlike s₁ s₂ t₁ t₂) (h' : AnsweredAlike t₁ t₂ u₁ u₂) :
    AnsweredAlike s₁ s₂ u₁ u₂ := by
  obtain ⟨-, rs₁, rs₂, ht₁, ht₂, hmap, herr⟩ := h
  obtain ⟨hreg, rs₁', rs₂', hu₁, hu₂, hmap', herr'⟩ := h'
  refine ⟨hreg, rs₁ ++ rs₁', rs₂ ++ rs₂', by rw [hu₁, ht₁, List.append_assoc], by rw [hu₂, ht₂, List.append_assoc],
    by rw [List.map_append, List.map_append, hmap, hmap'], fun he => ?_⟩
  obtain ⟨hte, rfl⟩ := herr he
  obtain ⟨hue, rfl⟩ := herr' hte
  exact ⟨hue, rfl⟩

/-! ## One command in both blocks -/

/-- The same code and result, sent from states that agree in the registers, is one response answered alike. -/
theorem respond_alike (c : Code) (v : Long) (h : SameRegisters t₁ t₂) (ho₁ : t₁.outbox = s₁.outbox)
    (ho₂ : t₂.outbox = s₂.outbox) (he : s₁.err = s₂.err → t₁.err = t₂.err) :
    ResultsAlike s₁ s₂ (respond c v t₁) (respond c v t₂) := by
  refine ⟨_, _, rfl, rfl, { h with }, [_], [_], congrArg (· ++ _) ho₁, congrArg (· ++ _) ho₂, rfl, fun hs => ?_⟩
  have hstatus : t₁.status = t₂.status := by rw [State.status, State.status, he hs, h.seeded]
  exact ⟨he hs, by rw [hstatus]⟩

theorem raiseError_alike (c : Code) (h : SameRegisters s₁ s₂) :
    ResultsAlike s₁ s₂ (raiseError c s₁) (raiseError c s₂) :=
  respond_alike (t₁ := s₁.setErr) (t₂ := s₂.setErr) c _ { h with } rfl rfl fun _ => rfl

/-- SEED needs no agreement but in the parameters: it writes all the other registers (R42). -/
theorem exec_seed_alike (v : Word) (h : s₁.params = s₂.params) :
    ResultsAlike s₁ s₂ (exec (.seed v) s₁) (exec (.seed v) s₂) :=
  respond_alike .ok _ ⟨congrArg (seededGen · v) h, rfl, rfl, rfl, h⟩ rfl rfl id

/-- Every draw but BOOL reads the generator alone: its steps and its result are the same in every seeded block with the
generator `g`. -/
theorem exec_draw_reads_gen {i : Instr} (hi : i.isDraw = true) (hb : i ≠ .bool) (g : Gen) :
    ∃ k v, ∀ s : State, s.seeded = true → s.gen = g → exec i s = respond .ok v (s.setGen (Gen.iter k g)) := by
  cases i with
  | seed v => cases hi
  | bool => exact absurd rfl hb
  | next =>
    obtain ⟨⟨g', v⟩, hloop⟩ := Option.ne_none_iff_exists'.mp (nextLoop_ne_none g)
    obtain ⟨k, -, -, rfl, -⟩ := nextLoop_some hloop
    exact ⟨k + 1, zext64 v, fun s hs hg => by rw [exec, execNext, whenSeeded_seeded hs, hg, hloop]⟩
  | word => exact ⟨1, zext64 g.next.w, fun s hs hg => hg ▸ whenSeeded_seeded hs _⟩
  | next31 => exact ⟨1, zext64 (low31 g.next.w), fun s hs hg => hg ▸ whenSeeded_seeded hs _⟩
  | u64 | i64 => exact ⟨2, concat64 g.next.w g.next.next.w, fun s hs hg => hg ▸ whenSeeded_seeded hs _⟩

theorem exec_bool_alike (h : SameRegisters s₁ s₂) (hs : s₂.seeded = true) :
    ResultsAlike s₁ s₂ (exec .bool s₁) (exec .bool s₂) := by
  rw [exec, exec, execBool, execBool, whenSeeded_seeded hs, whenSeeded_seeded (h.seeded.trans hs), h.params,
    h.refill.cachedBit]
  exact respond_alike .ok _ h.refill.shiftMask (refill_outbox s₁) (refill_outbox s₂) (by simp)

theorem exec_alike (i : Instr) (h : SameRegisters s₁ s₂) : ResultsAlike s₁ s₂ (exec i s₁) (exec i s₂) := by
  cases hi : i.isDraw with
  | false =>
    obtain ⟨v, rfl⟩ := eq_seed_of_not_isDraw hi
    exact exec_seed_alike v h.params
  | true =>
    cases hs : s₂.seeded with
    | false =>
      rw [exec_draw_unseeded hi hs, exec_draw_unseeded hi (h.seeded.trans hs)]
      exact raiseError_alike .notSeeded h
    | true =>
      by_cases hb : i = .bool
      · subst hb
        exact exec_bool_alike h hs
      · obtain ⟨k, v, hdraw⟩ := exec_draw_reads_gen hi hb s₂.gen
        rw [hdraw s₁ (h.seeded.trans hs) h.gen, hdraw s₂ hs rfl]
        exact respond_alike .ok v (h.setGen _) rfl rfl id

theorem runCommand_alike (w : Command) (h : SameRegisters s₁ s₂) :
    ResultsAlike s₁ s₂ (runCommand w s₁) (runCommand w s₂) := by
  cases hd : decode w with
  | ok i =>
    rw [runCommand_ok hd, runCommand_ok hd]
    exact exec_alike i h
  | error e =>
    rw [runCommand_reserved hd, runCommand_reserved hd]
    exact raiseError_alike .illegalOp h

/-! ## Runs of commands -/

theorem runCommand_setInbox {w : Command} {s t : State} (h : runCommand w s = .next t) (es : List PortEvent) :
    runCommand w (s.setInbox es) = .next (t.setInbox es) := by
  cases hd : decode w with
  | ok i =>
    rw [runCommand_ok hd] at h ⊢
    exact exec_setInbox h es
  | error e =>
    rw [runCommand_reserved hd] at h ⊢
    cases eq_send_of_respond h
    rfl

theorem runCommands_cons {w : Command} {s t : State} (h : runCommand w s = .next t) (ws : List Command) :
    runCommands (w :: ws) s = runCommands ws t :=
  runEvents_cons (runCommand_setInbox h (ws.map .command))

theorem runCommands_alike (ws : List Command) (h : SameRegisters s₁ s₂) :
    ResultsAlike s₁ s₂ (runCommands ws s₁) (runCommands ws s₂) := by
  induction ws generalizing s₁ s₂ with
  | nil => exact ⟨_, _, rfl, rfl, { h with }, h.answeredAlike.responses⟩
  | cons w ws ih =>
    obtain ⟨u₁, u₂, hu₁, hu₂, hu⟩ := runCommand_alike w h
    obtain ⟨t₁, t₂, ht₁, ht₂, ht⟩ := ih hu.registers
    exact ⟨t₁, t₂, (runCommands_cons hu₁ ws).trans ht₁, (runCommands_cons hu₂ ws).trans ht₂, hu.trans ht⟩

end TwoBlocks

/-- Settles O44: SEED makes the registers agree, and every command after it is answered alike and keeps them so. -/
theorem sameSeedAndCommandsSameResponses : Obligations.SameSeedAndCommandsSameResponses := by
  intro v ws s₁ s₂ hp
  have hd : decode (encode (.seed v)) = .ok (.seed v) := decode_encodeWith 0#32 (.seed v)
  obtain ⟨u₁, u₂, hu₁, hu₂, hu⟩ := exec_seed_alike v hp
  obtain ⟨t₁, t₂, ht₁, ht₂, ht⟩ := runCommands_alike ws hu.registers
  obtain ⟨hreg, rs₁, rs₂, ho₁, ho₂, hmap, herr⟩ := hu.trans ht
  refine ⟨t₁, t₂, (runCommands_cons ((runCommand_ok hd s₁).trans hu₁) ws).trans ht₁,
    (runCommands_cons ((runCommand_ok hd s₂).trans hu₂) ws).trans ht₂,
    hreg.gen, hreg.bitBuf, hreg.bitMask, hreg.seeded, ?_⟩
  rw [ho₁, ho₂, List.drop_left, List.drop_left]
  exact ⟨hmap, herr⟩

end Sys2Proof.Machine
end

section
/-! PROOFS. The statements about the word generator (spec/41_word_generator.md): the recurrence and its bits, the inverse
of the state map, the last four words, and the command WORD. -/

namespace Sys2Proof.Machine

/-! ## The recurrence (R46) and its bits (R49) -/

/-- Settles O17: the recurrence is the definition of the step, with the mix of x written out. -/
theorem stepFunctionIsTheRecurrence : Obligations.StepFunctionIsTheRecurrence := fun _ => rfl

/-- A logical shift to the right brings in 0 for the bits past bit 31. -/
theorem getLsbD_ushiftRight_guarded (v : Word) (k i : Nat) :
    (v >>> k).getLsbD i = (decide (i + k < 32) && v.getLsbD (i + k)) := by
  rw [BitVec.getLsbD_ushiftRight, Nat.add_comm k i]
  by_cases h : i + k < 32
  · simp [h]
  · simp [h, BitVec.getLsbD_of_ge v (i + k) (Nat.le_of_not_lt h)]

/-- The shift to the left in the mix brings in 0 for the bits below bit 11. -/
theorem getLsbD_xsMix (x : Word) {i : Nat} (hi : i < 32) :
    (xsMix x).getLsbD i = (x.getLsbD i ^^ (decide (11 ≤ i) && x.getLsbD (i - 11))) := by
  rw [xsMix, BitVec.getLsbD_xor, BitVec.getLsbD_shiftLeft]
  by_cases h : i < 11
  · simp [h, hi, Nat.not_le.mpr h]
  · simp [h, hi, Nat.not_lt.mp h]

/-- Settles O18: the new word is an exclusive or of shifted words, and so is each of its bits; where the bit of the mix
is read at `i + 8`, that place is below 32. -/
theorem newWordBitByBit : Obligations.NewWordBitByBit := by
  intro g i hi
  have mixShifted : (xsMix g.x >>> 8).getLsbD i =
      (decide (i + 8 < 32) && (g.x.getLsbD (i + 8) ^^ (decide (11 ≤ i + 8) && g.x.getLsbD (i + 8 - 11)))) := by
    rw [getLsbD_ushiftRight_guarded]
    by_cases h : i + 8 < 32
    · rw [getLsbD_xsMix g.x h]
    · simp [h]
  rw [Gen.next, xsWord, BitVec.getLsbD_xor, BitVec.getLsbD_xor, BitVec.getLsbD_xor, getLsbD_ushiftRight_guarded,
    getLsbD_xsMix g.x hi, mixShifted]

/-! ## The inverse of the state map (R50) -/

/-- The mix of XS_STEP undone (R50): the `x` with `x ^ (x << 11) = t`. -/
def xsUnmix (t : Word) : Word := t ^^^ (t <<< 11) ^^^ (t <<< 22)

/-- The fold `t ^ (t >> 8)` of XS_STEP undone (R50): the `t` with `t ^ (t >> 8) = u`. -/
def xsUnfold (u : Word) : Word := u ^^^ (u >>> 8) ^^^ (u >>> 16) ^^^ (u >>> 24)

/-- The stated inverse in terms of the two operations. -/
theorem prev_eq (g : Gen) :
    g.prev = { x := xsUnmix (xsUnfold (g.w ^^^ g.z ^^^ (g.z >>> 19))), y := g.x, z := g.y, w := g.z } := rfl

theorem xor_xor_cancel_right (a b : Word) : a ^^^ b ^^^ b = a := by
  rw [BitVec.xor_assoc, BitVec.xor_self, BitVec.xor_zero]

/-- Shifting by 11 drops the last term: by 33 nothing of a word is left. -/
theorem shiftLeft_xsUnmix (t : Word) : xsUnmix t <<< 11 = (t <<< 11) ^^^ (t <<< 22) := by
  rw [xsUnmix, BitVec.shiftLeft_xor_distrib, BitVec.shiftLeft_xor_distrib, ← BitVec.shiftLeft_add,
    ← BitVec.shiftLeft_add, BitVec.shiftLeft_eq_zero (n := 22 + 11) (by decide), BitVec.xor_zero]

theorem xsMix_xsUnmix (t : Word) : xsMix (xsUnmix t) = t := by
  rw [xsMix, shiftLeft_xsUnmix, xsUnmix, BitVec.xor_assoc t, xor_xor_cancel_right]

theorem shiftLeft_xsMix (x : Word) (k : Nat) : xsMix x <<< k = (x <<< k) ^^^ (x <<< (11 + k)) := by
  rw [xsMix, BitVec.shiftLeft_xor_distrib, BitVec.shiftLeft_add]

theorem xsUnmix_xsMix (x : Word) : xsUnmix (xsMix x) = x := by
  have last : xsMix x <<< 22 = x <<< 22 := by
    rw [shiftLeft_xsMix, BitVec.shiftLeft_eq_zero (n := 11 + 22) (by decide), BitVec.xor_zero]
  rw [xsUnmix, last, shiftLeft_xsMix, BitVec.xor_assoc (xsMix x), xor_xor_cancel_right, xsMix, xor_xor_cancel_right]

/-- Shifting by 8 drops the last term: by 32 nothing of a word is left. -/
theorem ushiftRight_xsUnfold (u : Word) : xsUnfold u >>> 8 = (u >>> 8) ^^^ (u >>> 16) ^^^ (u >>> 24) := by
  simp only [xsUnfold, BitVec.ushiftRight_xor_distrib, ← BitVec.shiftRight_add]
  rw [BitVec.ushiftRight_eq_zero (n := 24 + 8) (by decide), BitVec.xor_zero]

theorem fold_xsUnfold (u : Word) : xsUnfold u ^^^ (xsUnfold u >>> 8) = u := by
  rw [ushiftRight_xsUnfold, xsUnfold, BitVec.xor_assoc u, BitVec.xor_assoc u, xor_xor_cancel_right]

theorem ushiftRight_fold (t : Word) (k : Nat) : (t ^^^ (t >>> 8)) >>> k = (t >>> k) ^^^ (t >>> (8 + k)) := by
  rw [BitVec.ushiftRight_xor_distrib, BitVec.shiftRight_add]

theorem xsUnfold_fold (t : Word) : xsUnfold (t ^^^ (t >>> 8)) = t := by
  have last : (t ^^^ (t >>> 8)) >>> 24 = t >>> 24 := by
    rw [ushiftRight_fold, BitVec.ushiftRight_eq_zero (n := 8 + 24) (by decide), BitVec.xor_zero]
  rw [xsUnfold, last, ushiftRight_fold t 8, ushiftRight_fold t 16, BitVec.xor_assoc _ (_ ^^^ t >>> (8 + 16)),
    xor_xor_cancel_right, BitVec.xor_assoc _ (_ ^^^ t >>> (8 + 8)), xor_xor_cancel_right, xor_xor_cancel_right]

theorem prev_next (g : Gen) : g.next.prev = g := by
  have new : g.next.w ^^^ g.next.z ^^^ (g.next.z >>> 19) = xsMix g.x ^^^ (xsMix g.x >>> 8) := by
    rw [Gen.next, xsWord, BitVec.xor_comm (g.w ^^^ _), BitVec.xor_assoc, xor_xor_cancel_right]
  rw [prev_eq, new, xsUnfold_fold, xsUnmix_xsMix]
  rfl

theorem next_prev (g : Gen) : g.prev.next = g := by
  have new : xsWord g.prev.x g.prev.w = g.w := by
    simp only [prev_eq, xsWord, xsMix_xsUnmix, fold_xsUnfold]
    rw [BitVec.xor_comm, BitVec.xor_assoc g.w, xor_xor_cancel_right]
  rw [Gen.next, new]
  rfl

/-- The all-zero state steps to itself, and no other state steps to it. -/
theorem next_nonZero_iff (g : Gen) : g.next.nonZero ↔ g.nonZero := by
  refine ⟨?_, Gen.nonZero.next⟩
  rintro h ⟨hx, hy, hz, hw⟩
  have new : g.next.w = 0#32 := by
    simp only [Gen.next, hx, hw]
    decide
  exact h ⟨hy, hz, hw, new⟩

/-- Settles O19: the mix and the fold are undone one after the other. -/
theorem stepMapIsABijection : Obligations.StepMapIsABijection :=
  ⟨prev_next, next_prev, prev_eq, next_nonZero_iff⟩

/-! ## The last four words (R51) -/

/-- Each word moves down one place a step, so after three more steps W is X. -/
theorem iter_add_four (m : Nat) (g : Gen) :
    Gen.iter (m + 4) g =
      { x := (Gen.iter (m + 1) g).w, y := (Gen.iter (m + 2) g).w, z := (Gen.iter (m + 3) g).w
        w := (Gen.iter (m + 4) g).w } := by
  simp only [iter_succ_last]
  rfl

/-- No two states step to the same state, however many steps. -/
theorem iter_injective (k : Nat) : Function.Injective (Gen.iter k) := by
  induction k with
  | zero => exact fun _ _ h => h
  | succ k ih => exact ih.comp (Function.LeftInverse.injective prev_next)

/-- Settles O20: the last four words are the state after `k` steps, and equal states after `k` steps have equal start
states. -/
theorem stateIsTheLastFourWords : Obligations.StateIsTheLastFourWords := by
  have lastFour (g : Gen) (k : Nat) (hk : 4 ≤ k) : Gen.iter k g =
      { x := (Gen.iter (k - 3) g).w, y := (Gen.iter (k - 2) g).w
        z := (Gen.iter (k - 1) g).w, w := (Gen.iter k g).w } := by
    obtain ⟨m, rfl⟩ := Nat.exists_eq_add_of_le' hk
    exact iter_add_four m g
  refine ⟨lastFour, fun g h k hk words => iter_injective k ?_, fun _ => rfl⟩
  rw [lastFour g k hk, lastFour h k hk, words (k - 3) (by omega) (by omega), words (k - 2) (by omega) (by omega),
    words (k - 1) (by omega) (by omega), words k (by omega) (by omega)]

/-! ## WORD (R48) -/

/-- Settles O23: every OP 0x2 word is one of WORD's words; a seeded block answers the new word, and a draw without a
seed raises NOT_SEEDED. -/
theorem wordReturnsTheNewWord : Obligations.WordReturnsTheNewWord :=
  ⟨fun a => decode_encodeWith a .word, fun _ => ⟨exec_word_seeded, fun hs => whenSeeded_unseeded hs _⟩⟩

/-- Settles O24: SKIP n is n WORD commands. -/
theorem consecutiveWordsAreTheBulkFill : Obligations.ConsecutiveWordsAreTheBulkFill :=
  fun n _ hs => runInstrs_replicate_word n hs

end Sys2Proof.Machine
end

section
/-! PROOFS. The statements about scalar words (spec/42_scalar_words.md): what a seeded draw answers, the 31-bit draws
NEXT31 and NEXT with the bound on NEXT's retries, and the 64-bit draws U64 and I64. -/

namespace Sys2Proof.Machine

/-! ## The low 31 bits of a word (R53, R54) -/

theorem toNat_low31 (v : Word) : (low31 v).toNat = v.toNat % 2 ^ 31 := by
  rw [low31, BitVec.toNat_and]
  exact Nat.and_two_pow_sub_one_eq_mod v.toNat 31

theorem toNat_zext64 (v : Word) : (zext64 v).toNat = v.toNat :=
  BitVec.toNat_setWidth_of_le (by decide)

/-- Bit 31 is masked out, so flipping it changes nothing. -/
theorem low31_flipBit31 (v : Word) : low31 (v ^^^ 0x80000000#32) = low31 v := by
  have masked : (0x80000000#32).toNat % 2 ^ 31 = 0 := by decide
  apply BitVec.eq_of_toNat_eq
  rw [toNat_low31, toNat_low31, BitVec.toNat_xor, Nat.xor_mod_two_pow, masked, Nat.xor_zero]

/-- The sentinel is the largest 31-bit value, so every other one lies below it. -/
theorem toNat_low31_le_of_ne_sentinel {v : Word} (h : low31 v ≠ sentinel) : (low31 v).toNat ≤ 0x7FFFFFFE := by
  have hne : (low31 v).toNat ≠ 0x7FFFFFFF := fun heq => h (BitVec.eq_of_toNat_eq heq)
  rw [toNat_low31] at hne ⊢
  omega

/-! ## What a seeded draw answers (R35) -/

/-- The draw guard lets a seeded block through: its generator becomes `g`, and the response shows SEEDED in STATUS. -/
theorem whenSeeded_respond_setGen {s : State} (h : s.seeded = true) (g : Gen) (v : Long) :
    whenSeeded s (respond .ok v (s.setGen g)) =
      .next ((s.setGen g).send { code := .ok, status := statusBits s.err true, result := v }) := by
  rw [whenSeeded_seeded h, respond_eq, setGen_err, setGen_seeded, h]

/-! ## No step stops (R55, R70, R88) -/

/-- Settles O11: waiting, a command, a reserved OP and a reset all answer a next state, NEXT because its fuel is
enough. -/
theorem everyStepAnswersANextState : Obligations.EveryStepAnswersANextState :=
  step_answers

/-! ## NEXT: the retry loop (R54) and its bound (R55) -/

/-- The loop of NEXT ends within its fuel, at the first word that does not mask to the sentinel. -/
theorem nextLoop_nextFuel (g : Gen) :
    ∃ k, k ≤ 4 ∧ (∀ j, 1 ≤ j → j ≤ k → low31 (Gen.iter j g).w = sentinel) ∧
      low31 (Gen.iter (k + 1) g).w ≠ sentinel ∧
      nextLoop nextFuel g = some (Gen.iter (k + 1) g, low31 (Gen.iter (k + 1) g).w) := by
  obtain ⟨⟨g', v⟩, hloop⟩ := Option.ne_none_iff_exists'.mp (nextLoop_ne_none g)
  obtain ⟨k, hk, hsent, rfl, rfl, hne⟩ := nextLoop_some hloop
  exact ⟨k, Nat.le_of_lt_succ hk, hsent, hne, hloop⟩

/-- Settles O27: the loop's answer is NEXT's response. -/
theorem nextReturnsTheFirstNonSentinel : Obligations.NextReturnsTheFirstNonSentinel := by
  refine ⟨fun a => decode_encodeWith a .next, fun s => ⟨fun hs => ?_, fun hs => whenSeeded_unseeded hs _⟩⟩
  obtain ⟨k, hk, hsent, hne, hloop⟩ := nextLoop_nextFuel s.gen
  refine ⟨k, hk, hsent, hne, ?_⟩
  rw [exec, execNext, hloop]
  exact whenSeeded_respond_setGen hs _ _

/-- The start state of V-NEXT-5, from which NEXT retries four times. -/
def longestSentinelRun : Gen where
  x := 0xA3640CEC#32
  y := 0x58FB0F70#32
  z := 0x5C7B9F60#32
  w := 0xFC7F8FF0#32

theorem longestSentinelRun_words :
    (Gen.iter 1 longestSentinelRun).w = 0x7FFFFFFF#32 ∧ (Gen.iter 2 longestSentinelRun).w = 0xFFFFFFFF#32 ∧
    (Gen.iter 3 longestSentinelRun).w = 0x7FFFFFFF#32 ∧ (Gen.iter 4 longestSentinelRun).w = 0x7FFFFFFF#32 := by
  decide

/-- Settles O28: the loop's bound is the bound on the run, and the vector's state reaches it. -/
theorem noSentinelRunIsLongerThanFour : Obligations.NoSentinelRunIsLongerThanFour := by
  refine ⟨fun g => ?_, longestSentinelRun, fun j h1 h4 => ?_⟩
  · obtain ⟨k, hk, -, hne, -⟩ := nextLoop_nextFuel g
    exact ⟨k + 1, by omega, by omega, hne⟩
  · obtain ⟨w1, w2, w3, w4⟩ := longestSentinelRun_words
    interval_cases j <;> simp [w1, w2, w3, w4]

/-- Settles O29: NEXT's result is the first value that is not the sentinel. -/
theorem nextNeverReturnsTheSentinel : Obligations.NextNeverReturnsTheSentinel := by
  intro s t hs ht
  obtain ⟨-, answers⟩ := nextReturnsTheFirstNonSentinel
  obtain ⟨seeded, -⟩ := answers s
  obtain ⟨k, -, -, hne, he⟩ := seeded hs
  cases he.symm.trans ht
  exact ⟨_, rfl, rfl, (toNat_zext64 _).trans_le (toNat_low31_le_of_ne_sentinel hne)⟩

/-! ## NEXT31 (R53) -/

/-- Settles O25: one step and the masked word, or NOT_SEEDED. -/
theorem next31ReturnsTheLow31Bits : Obligations.Next31ReturnsTheLow31Bits :=
  ⟨fun a => decode_encodeWith a .next31,
    fun _ => ⟨fun hs => whenSeeded_respond_setGen hs _ _, fun hs => whenSeeded_unseeded hs _⟩⟩

theorem exec_next31_seeded {s : State} (h : s.seeded = true) :
    ∃ t r, exec .next31 s = .next t ∧ t.outbox = s.outbox ++ [r] ∧ r.code = .ok ∧
      r.result = zext64 (low31 s.gen.next.w) :=
  ⟨_, _, whenSeeded_respond_setGen h _ _, rfl, rfl, rfl⟩

/-- Settles O26: the mask is the remainder modulo 2^31, and it hides bit 31. -/
theorem next31DoesNotSeeBit31 : Obligations.Next31DoesNotSeeBit31 := by
  refine ⟨fun s hs => ?_, fun s₁ s₂ h₁ h₂ hflip => ?_⟩
  · obtain ⟨t, r, he, ho, hc, hr⟩ := exec_next31_seeded hs
    exact ⟨t, r, he, ho, hc, by rw [hr, toNat_zext64, toNat_low31]⟩
  · obtain ⟨t₁, r₁, he₁, ho₁, -, hr₁⟩ := exec_next31_seeded h₁
    obtain ⟨t₂, r₂, he₂, ho₂, -, hr₂⟩ := exec_next31_seeded h₂
    exact ⟨t₁, t₂, r₁, r₂, he₁, he₂, ho₁, ho₂, by rw [hr₁, hr₂, hflip, low31_flipBit31]⟩

/-! ## U64 and I64 (R56, R57) -/

/-- Settles O30: two steps and both words, or NOT_SEEDED. -/
theorem u64ReturnsTwoWordsFirstHigh : Obligations.U64ReturnsTwoWordsFirstHigh :=
  ⟨fun a => decode_encodeWith a .u64,
    fun _ => ⟨fun hs => whenSeeded_respond_setGen hs _ _, fun hs => whenSeeded_unseeded hs _⟩⟩

theorem exec_i64_eq_u64 (s : State) : exec .i64 s = exec .u64 s := rfl

/-- The sign of a 64-bit result is the top bit of its high word (R57). -/
theorem s64_append_neg_iff (hi lo : Word) : s64 (hi ++ lo) < 0 ↔ hi.getLsbD 31 = true := by
  have top : (hi ++ lo).msb = hi.getLsbD 31 := by
    rw [BitVec.msb_append, if_neg (by decide), BitVec.msb_eq_getLsbD_last]
  rw [s64, ← top, BitVec.msb_eq_toInt, decide_eq_true_eq]

/-- Settles O31: I64 is U64 with its own OP, and the first word's top bit is the result's sign. -/
theorem i64ReturnsTheBitsOfU64 : Obligations.I64ReturnsTheBitsOfU64 := by
  obtain ⟨-, u64⟩ := u64ReturnsTwoWordsFirstHigh
  refine ⟨fun a => decode_encodeWith a .i64, fun s => ?_⟩
  obtain ⟨seeded, unseeded⟩ := u64 s
  exact ⟨seeded, unseeded, exec_i64_eq_u64 s, s64_append_neg_iff _ _⟩

end Sys2Proof.Machine
end

section
/-! PROOFS. The statements about the bit cache (spec/43_bit_cache.md): BOOL, the economy of its bits, the draws that do
not touch the cache, and the polarity. A run of BOOLs is taken apart at the refills: each word is drawn by the first
BOOL that finds the cache empty, and what follows reads the cache from its top unread bit down. -/

namespace Sys2Proof.Machine

/-! ## The marked bit (R14, R61) -/

theorem twoPow_ne_zero {k : Nat} (hk : k < 32) : BitVec.twoPow 32 k ≠ 0#32 := by
  intro h
  have hnat := congrArg BitVec.toNat h
  rw [BitVec.toNat_twoPow_of_lt hk] at hnat
  exact (Nat.two_pow_pos k).ne' hnat

/-- Where the mask is one-hot, the marked bit is the bit at its place. -/
theorem cachedBit_of_twoPow {s : State} {k : Nat} (hk : k < 32) (hm : s.bitMask = BitVec.twoPow 32 k) :
    s.cachedBit = s.bitBuf.getLsbD k := by
  rw [State.cachedBit, hm, BitVec.and_twoPow]
  cases s.bitBuf.getLsbD k <;> simp [twoPow_ne_zero hk]

theorem topMask_eq_twoPow : topMask = BitVec.twoPow 32 31 := by decide

/-- A fresh cache hands out bit 31 of the new word first. -/
theorem refill_cachedBit_of_empty {s : State} (h : s.bitMask = 0#32) :
    s.refill.cachedBit = s.gen.next.w.getLsbD 31 := by
  rw [refill_empty h]
  exact cachedBit_of_twoPow (by decide) topMask_eq_twoPow

theorem refill_refill (s : State) : s.refill.refill = s.refill :=
  refill_nonempty (refill_bitMask_ne_zero s)

/-! ## BOOL (R61) -/

/-- The response of `BOOL` in the seeded state `s` when the marked bit is `b`. -/
def boolResponse (s : State) (b : Bool) : Response where
  code := .ok
  status := statusBits s.err true
  result := boolResult s.params.boolOneIsTrue b

/-- The response depends on the state only in ERR and the polarity. -/
theorem boolResponse_congr {s t : State} (he : t.err = s.err) (hp : t.params = s.params) :
    boolResponse t = boolResponse s := by
  funext b
  rw [boolResponse, boolResponse, he, hp]

theorem boolResponse_refill (s : State) : boolResponse s.refill = boolResponse s :=
  boolResponse_congr (refill_err s) (refill_params s)

theorem exec_bool_seeded {s : State} (h : s.seeded = true) :
    exec .bool s = .next (s.refill.shiftMask.send (boolResponse s s.refill.cachedBit)) := by
  rw [exec, execBool, whenSeeded_seeded h, respond_eq, shiftMask_err, shiftMask_seeded, refill_err, refill_seeded, h]
  rfl

/-- Settles O32: the refill of an empty cache takes one step and marks bit 31; a cache with bits left is read as it
stands. -/
theorem boolHandsOutTheMarkedBit : Obligations.BoolHandsOutTheMarkedBit := by
  refine ⟨fun a => decode_encodeWith a .bool, fun s => ⟨fun hs hm => ?_, fun hs hm => ?_,
    fun hs => whenSeeded_unseeded hs _⟩⟩
  · have shifted : topMask >>> 1 = 0x40000000#32 := by decide
    rw [exec_bool_seeded hs, refill_cachedBit_of_empty hm, refill_empty hm, State.shiftMask, setCache_bitMask, shifted]
    rfl
  · have hbit : s.cachedBit = decide (s.bitBuf &&& s.bitMask ≠ 0#32) := decide_not.symm
    rw [exec_bool_seeded hs, refill_nonempty hm, hbit]
    rfl

/-! ## The bits left in the cache (R14, R17) -/

/-- The mask of a cache with `n` bits left, `n ≤ 32`: it marks bit `n - 1`, the next to be handed out. -/
def unreadMask : Nat → Word
  | 0 => 0#32
  | n + 1 => BitVec.twoPow 32 n

theorem unreadMask_succ_ushiftRight_one {n : Nat} (h : n < 32) : unreadMask (n + 1) >>> 1 = unreadMask n := by
  cases n with
  | zero => decide
  | succ n => exact twoPow_succ_ushiftRight_one h

theorem unreadMask_eq_zero_iff {n : Nat} (h : n ≤ 32) : unreadMask n = 0#32 ↔ n = 0 := by
  cases n with
  | zero => exact iff_of_true rfl rfl
  | succ n => exact iff_of_false (twoPow_ne_zero h) (Nat.succ_ne_zero n)

/-- With bits left, BOOL hands out the next one and leaves one fewer. -/
theorem exec_bool_unread {n : Nat} (hn : n < 32) {s : State} (hs : s.seeded = true)
    (hm : s.bitMask = unreadMask (n + 1)) :
    exec .bool s = .next ((s.setCache s.bitBuf (unreadMask n)).send (boolResponse s (s.bitBuf.getLsbD n))) := by
  have hne : s.bitMask ≠ 0#32 := hm ▸ twoPow_ne_zero hn
  rw [exec_bool_seeded hs, refill_nonempty hne, cachedBit_of_twoPow hn hm, State.shiftMask, hm,
    unreadMask_succ_ushiftRight_one hn]

/-! ## Runs of instructions -/

theorem runInstrs_nil (s : State) : runInstrs [] s = .next (s.setInbox []) := rfl

theorem runInstrs_cons {i : Instr} {s t : State} (h : exec i s = .next t) (is : List Instr) :
    runInstrs (i :: is) s = runInstrs is t :=
  runCommands_cons ((runCommand_ok (decode_encodeWith 0#32 i) s).trans h) (is.map encode)

theorem runInstrs_append {is : List Instr} {s t : State} (h : runInstrs is s = .next t) (js : List Instr) :
    runInstrs (is ++ js) s = runInstrs js t := by
  simp only [runInstrs, runCommands, List.map_append] at h ⊢
  exact runsComposeInAcceptanceOrder _ _ s t h

/-- Since the seeded state `s` the block has answered BOOLs with `bits`, the polarity applied, and now stands at `t`. -/
structure HandedOut (s : State) (bits : List Bool) (t : State) : Prop where
  seeded : t.seeded = true
  err : t.err = s.err
  params : t.params = s.params
  outbox : t.outbox = s.outbox ++ bits.map (boolResponse s)

theorem HandedOut.nil {s : State} (h : s.seeded = true) (es : List PortEvent) : HandedOut s [] (s.setInbox es) :=
  ⟨h, rfl, rfl, (List.append_nil _).symm⟩

theorem HandedOut.trans {s t u : State} {bs cs : List Bool} (h : HandedOut s bs t) (h' : HandedOut t cs u) :
    HandedOut s (bs ++ cs) u := by
  refine ⟨h'.seeded, h'.err.trans h.err, h'.params.trans h.params, ?_⟩
  rw [h'.outbox, h.outbox, boolResponse_congr h.err h.params, List.map_append, List.append_assoc]

/-- A refill sends nothing, so what is handed out after it counts from before it. -/
theorem HandedOut.of_refill {s t : State} {bs : List Bool} (h : HandedOut s.refill bs t) : HandedOut s bs t :=
  ⟨h.seeded, h.err.trans (refill_err s), h.params.trans (refill_params s),
    by rw [h.outbox, refill_outbox, boolResponse_refill]⟩

/-! ## The economy of bits (R60, R62) -/

/-- While bits are left, `m` BOOLs hand out the next `m` of them and leave the generator and BITBUF. -/
theorem runInstrs_bool_unread {m n : Nat} (hmn : m ≤ n) (hn : n ≤ 32) {s : State} (hs : s.seeded = true)
    (hmask : s.bitMask = unreadMask n) :
    ∃ t, runInstrs (List.replicate m .bool) s = .next t ∧
      HandedOut s ((List.range m).map fun j => s.bitBuf.getLsbD (n - 1 - j)) t ∧
      t.gen = s.gen ∧ t.bitBuf = s.bitBuf ∧ t.bitMask = unreadMask (n - m) := by
  induction m generalizing n s with
  | zero => exact ⟨_, runInstrs_nil s, .nil hs [], rfl, rfl, hmask⟩
  | succ m ih =>
    obtain ⟨n, rfl⟩ : ∃ n', n = n' + 1 := ⟨n - 1, by omega⟩
    have hbool := exec_bool_unread hn hs hmask
    have first : HandedOut s [s.bitBuf.getLsbD n]
        ((s.setCache s.bitBuf (unreadMask n)).send (boolResponse s (s.bitBuf.getLsbD n))) := ⟨hs, rfl, rfl, rfl⟩
    obtain ⟨t, hrun, rest, hgen, hbuf, hleft⟩ :=
      ih (Nat.le_of_succ_le_succ hmn) (Nat.le_of_succ_le hn) first.seeded rfl
    refine ⟨t, (runInstrs_cons hbool _).trans hrun, ?_, hgen, hbuf, ?_⟩
    · rw [List.range_succ_eq_map, List.map_cons, List.map_map]
      simpa [Function.comp_def, Nat.sub_sub, Nat.add_comm 1] using first.trans rest
    · rw [hleft, Nat.add_sub_add_right]

/-- A run that begins with BOOL does the same from a cache that is refilled beforehand. -/
theorem runInstrs_bool_cons_refill {s : State} (hs : s.seeded = true) (is : List Instr) :
    runInstrs (.bool :: is) s.refill = runInstrs (.bool :: is) s := by
  have hbool : exec .bool s.refill = exec .bool s := by
    rw [exec_bool_seeded hs, exec_bool_seeded ((refill_seeded s).trans hs), refill_refill,
      boolResponse_refill]
  rw [runInstrs_cons (hbool.trans (exec_bool_seeded hs)), runInstrs_cons (exec_bool_seeded hs)]

/-- Bit `j` of the stream that BOOL draws from the generator `g` and an empty cache: each word from bit 31 down. -/
def streamBit (g : Gen) (j : Nat) : Bool := (Gen.iter (j / 32 + 1) g).w.getLsbD (31 - j % 32)

theorem streamBit_of_lt (g : Gen) {j : Nat} (h : j < 32) : streamBit g j = g.next.w.getLsbD (31 - j) := by
  rw [streamBit, Nat.div_eq_of_lt h, Nat.mod_eq_of_lt h]
  rfl

/-- After one word the stream is that of the next state. -/
theorem streamBit_add (g : Gen) (j : Nat) : streamBit g (32 + j) = streamBit g.next j := by
  rw [streamBit, Nat.add_mod_left, Nat.add_div_left j (by decide), iter_succ]
  rfl

/-- From an empty cache up to 32 BOOLs, but at least one, take one step and read its word from the top. -/
theorem runInstrs_bool_oneWord {m : Nat} (hpos : 0 < m) (hm : m ≤ 32) {s : State} (hs : s.seeded = true)
    (hempty : s.bitMask = 0#32) :
    ∃ t, runInstrs (List.replicate m .bool) s = .next t ∧ HandedOut s ((List.range m).map (streamBit s.gen)) t ∧
      t.gen = s.gen.next ∧ t.bitMask = unreadMask (32 - m) := by
  have fresh : s.refill = (s.setGen s.gen.next).setCache s.gen.next.w (unreadMask 32) := by
    rw [refill_empty hempty, topMask_eq_twoPow]
    rfl
  obtain ⟨t, hrun, hbits, hgen, -, hleft⟩ :=
    runInstrs_bool_unread hm (Nat.le_refl 32) (s := s.refill) ((refill_seeded s).trans hs) (by rw [fresh]; rfl)
  refine ⟨t, ?_, ?_, by rw [hgen, fresh]; rfl, hleft⟩
  · obtain ⟨m, rfl⟩ := Nat.exists_eq_succ_of_ne_zero hpos.ne'
    exact (runInstrs_bool_cons_refill hs _).symm.trans hrun
  · have word : (List.range m).map (streamBit s.gen) =
        (List.range m).map fun j => s.refill.bitBuf.getLsbD (32 - 1 - j) := by
      refine List.map_congr_left fun j hj => ?_
      rw [fresh, streamBit_of_lt s.gen (by rw [List.mem_range] at hj; omega)]
      rfl
    exact word ▸ hbits.of_refill

/-- From an empty cache `n` BOOLs take ceil(n / 32) steps: none, or one word's, or a whole word and then the rest. -/
theorem runInstrs_bool_fromEmpty (n : Nat) {s : State} (hs : s.seeded = true) (hempty : s.bitMask = 0#32) :
    ∃ t, runInstrs (List.replicate n .bool) s = .next t ∧ HandedOut s ((List.range n).map (streamBit s.gen)) t ∧
      t.gen = Gen.iter ((n + 31) / 32) s.gen ∧ (t.bitMask = 0#32 ↔ n % 32 = 0) := by
  induction n using Nat.strong_induction_on generalizing s with
  | _ n ih =>
    rcases Nat.eq_zero_or_pos n with rfl | hpos
    · exact ⟨_, runInstrs_nil s, .nil hs [], rfl, iff_of_true hempty rfl⟩
    · by_cases hle : n ≤ 32
      · obtain ⟨t, hrun, hbits, hgen, hleft⟩ := runInstrs_bool_oneWord hpos hle hs hempty
        refine ⟨t, hrun, hbits, ?_, ?_⟩
        · rw [hgen, show (n + 31) / 32 = 1 by omega]
          rfl
        · rw [hleft, unreadMask_eq_zero_iff (by omega)]
          omega
      · obtain ⟨r, rfl⟩ : ∃ r, n = 32 + r := ⟨n - 32, by omega⟩
        obtain ⟨u, hword, bits, hugen, hu⟩ := runInstrs_bool_oneWord (by decide) (Nat.le_refl 32) hs hempty
        obtain ⟨t, hrun, bits', hgen, hmask⟩ := ih r (by omega) bits.seeded hu
        refine ⟨t, ?_, ?_, ?_, ?_⟩
        · rw [List.replicate_add, runInstrs_append hword, hrun]
        · rw [hugen] at bits'
          simpa [List.range_add, Function.comp_def, streamBit_add] using bits.trans bits'
        · rw [hgen, hugen, ← iter_succ, show (32 + r + 31) / 32 = (r + 31) / 32 + 1 by omega]
        · rw [hmask, Nat.add_mod_left]

/-- Settles O33: the run from an empty cache, and the run that empties a cache with `k + 1` bits left. -/
theorem booleanBitEconomy : Obligations.BooleanBitEconomy := by
  refine ⟨fun n s hs hempty => ?_, fun k s hs hk hmask => ?_⟩
  · obtain ⟨t, hrun, hbits, hgen, hleft⟩ := runInstrs_bool_fromEmpty n hs hempty
    exact ⟨t, hrun, hgen, hleft, by rw [hbits.outbox, List.map_map]; rfl⟩
  · obtain ⟨t, hrun, hbits, hgen, hbuf, hleft⟩ := runInstrs_bool_unread (Nat.le_refl (k + 1)) hk hs hmask
    refine ⟨t, hrun, hgen, hbuf, by rw [hleft, Nat.sub_self]; rfl, ?_⟩
    rw [hbits.outbox, List.map_map]
    rfl

/-! ## The draws that do not touch the cache (R63) -/

/-- Every draw but BOOL reads only the generator and the flags, and writes only the generator and ERR: in all states
that agree with `s₀` there it does the same. -/
theorem exec_draw_reads_gen_and_flags {i : Instr} (hi : i.isDraw = true) (hb : i ≠ .bool) (s₀ : State) :
    ∃ g e r, ∀ s : State, s.gen = s₀.gen → s.seeded = s₀.seeded → s.err = s₀.err →
      exec i s = .next { s with gen := g, err := e, outbox := s.outbox ++ [r] } := by
  rcases Bool.eq_false_or_eq_true s₀.seeded with hs₀ | hs₀
  · obtain ⟨k, v, hdraw⟩ := exec_draw_reads_gen hi hb s₀.gen
    refine ⟨Gen.iter k s₀.gen, s₀.err, { code := .ok, status := statusBits s₀.err s₀.seeded, result := v },
      fun s hg hs he => ?_⟩
    rw [hdraw s (hs.trans hs₀) hg, ← he, ← hs]
    rfl
  · refine ⟨s₀.gen, true, { code := .notSeeded, status := statusBits true s₀.seeded, result := 0#64 },
      fun s hg hs _ => ?_⟩
    rw [exec_draw_unseeded hi (hs.trans hs₀), ← hg, ← hs]
    rfl

/-- Settles O34: other cache contents are no difference in what these draws read. -/
theorem otherDrawsNeitherReadNorWriteTheCache : Obligations.OtherDrawsNeitherReadNorWriteTheCache := by
  intro i s t hi ht
  have hdraw : i.isDraw = true ∧ i ≠ .bool := by
    simp only [List.mem_cons, List.not_mem_nil, or_false] at hi
    rcases hi with rfl | rfl | rfl | rfl | rfl <;> decide
  obtain ⟨isDraw, notBool⟩ := hdraw
  obtain ⟨g, e, r, he⟩ := exec_draw_reads_gen_and_flags isDraw notBool s
  cases (he s rfl rfl rfl).symm.trans ht
  exact ⟨rfl, rfl, fun b m => he (s.setCache b m) rfl rfl rfl⟩

/-! ## The polarity (R64) -/

/-- A command other than BOOL answers the same under other parameters with the same constants of SEED. -/
theorem exec_setParams {i : Instr} (hb : i ≠ .bool) {s t : State} {p : Params}
    (hseed : ∀ v, seededGen p v = seededGen s.params v) (ht : exec i s = .next t) :
    exec i { s with params := p } = .next { t with params := p } := by
  cases hi : i.isDraw with
  | false =>
    obtain ⟨v, rfl⟩ := eq_seed_of_not_isDraw hi
    cases ht
    rw [← hseed v]
    rfl
  | true =>
    obtain ⟨g, e, r, he⟩ := exec_draw_reads_gen_and_flags hi hb s
    cases (he s rfl rfl rfl).symm.trans ht
    exact he { s with params := p } rfl rfl rfl

theorem refill_setParams (s : State) (p : Params) :
    State.refill { s with params := p } = { s.refill with params := p } := by
  by_cases h : s.bitMask = 0#32
  · rw [refill_empty h, refill_empty (s := { s with params := p }) h]
    rfl
  · rw [refill_nonempty h, refill_nonempty (s := { s with params := p }) h]

/-- BOOL answers with the same marked bit under other parameters. -/
theorem exec_bool_setParams {s : State} (h : s.seeded = true) (p : Params) :
    exec .bool { s with params := p } =
      .next ((State.shiftMask { s.refill with params := p }).send
        (boolResponse { s with params := p } s.refill.cachedBit)) := by
  rw [exec_bool_seeded (s := { s with params := p }) h, refill_setParams]
  rfl

theorem boolResult_eq_zero_or_one (p b : Bool) : boolResult p b = 0#64 ∨ boolResult p b = 1#64 := by
  cases p <;> cases b <;> decide

theorem boolResult_not (p b : Bool) : boolResult (!p) b = 1#64 - boolResult p b := by
  cases p <;> cases b <;> decide

/-- Settles O35: the polarity is read by BOOL's RESULT and by nothing else. -/
theorem polarityChangesOnlyTheBoolResult : Obligations.PolarityChangesOnlyTheBoolResult := by
  rintro s t i p rfl ht
  refine ⟨fun hb => exec_setParams hb (fun _ => rfl) ht, ?_⟩
  rintro rfl hs
  cases (exec_bool_seeded hs).symm.trans ht
  refine ⟨_, congrArg (· ++ _) (refill_outbox s), boolResult_eq_zero_or_one _ _, ?_⟩
  rw [exec_bool_setParams hs, boolResponse, boolResult_not, ← refill_outbox s]
  rfl

end Sys2Proof.Machine
end

section
/-! PROOFS. The statements about exceptions (spec/60_exceptions.md): the two errors, the one thing an error does to the
state, and the ERR flag over a run of commands. -/

namespace Sys2Proof.Machine

/-! ## A command answers OK or raises an error (R70) -/

/-- An instruction answers OK, or it raises NOT_SEEDED in the state it started from. -/
theorem exec_ok_or_raises (i : Instr) (s : State) :
    (∃ v s', exec i s = respond .ok v s' ∧ s'.outbox = s.outbox) ∨ exec i s = raiseError .notSeeded s := by
  rcases exec_cases i s with ⟨v, -, he⟩ | ⟨-, -, he⟩ | ⟨-, -, he⟩ | ⟨-, -, -, k, v, he⟩
  · exact .inl ⟨_, _, he, rfl⟩
  · exact .inr he
  · exact .inl ⟨_, _, he, refill_outbox s⟩
  · exact .inl ⟨_, _, he, rfl⟩

/-- A command word answers OK, or it raises an error in the state it started from. -/
theorem runCommand_ok_or_raises (w : Command) (s : State) :
    (∃ v s', runCommand w s = respond .ok v s' ∧ s'.outbox = s.outbox) ∨ ∃ c, runCommand w s = raiseError c s := by
  cases hd : decode w with
  | ok i =>
    rw [runCommand_ok hd]
    exact (exec_ok_or_raises i s).imp_right fun he => ⟨_, he⟩
  | error e => exact .inr ⟨_, runCommand_reserved hd s⟩

/-- Settles O37: the last response is OK where the command answered OK, and else all that happened is `raiseError`. -/
theorem errorsChangeOnlyTheErrorFlag : Obligations.ErrorsChangeOnlyTheErrorFlag := by
  intro s t w rest r ht hout hcode
  rw [step_accepting] at ht
  rcases runCommand_ok_or_raises w (s.setInbox rest) with ⟨v, s', he, hsame⟩ | ⟨c, he⟩ <;> rw [he] at ht
  · cases eq_send_of_respond ht
    rw [send_outbox, hsame, setInbox_outbox] at hout
    cases List.append_cancel_left hout
    exact absurd rfl hcode
  · rw [raiseError_eq] at ht
    cases ht
    cases List.append_cancel_left hout
    exact ⟨rfl, rfl, rfl⟩

/-! ## ERR over a run of commands (R72) -/

/-- A run of commands ends with ERR 0 exactly when it began so and all its responses are OK. -/
theorem runCommands_err_eq_false_iff (ws : List Command) (s : State) :
    ∃ t rs, runCommands ws s = .next t ∧ t.outbox = s.outbox ++ rs ∧
      (t.err = false ↔ s.err = false ∧ ∀ r ∈ rs, r.code = .ok) := by
  induction ws generalizing s with
  | nil => exact ⟨_, [], rfl, (List.append_nil _).symm, by simp⟩
  | cons w ws ih =>
    obtain ⟨c, v, s', he, ha, -⟩ := runCommand_answersWith w s
    obtain ⟨t, rs, ht, hout, herr⟩ := ih (s'.send { code := c, status := s'.status, result := v })
    refine ⟨t, { code := c, status := s'.status, result := v } :: rs, (runCommands_cons he ws).trans ht, ?_, ?_⟩
    · rw [hout, send_outbox, ha.outbox, List.append_assoc, List.singleton_append]
    · rw [herr, send_err, ha.err]
      simp [and_assoc]

/-- Settles O40: by what ERR 0 at the end of a run says of its responses. -/
theorem errClearAtTheEndMeansNoErrorResponse : Obligations.ErrClearAtTheEndMeansNoErrorResponse := by
  intro ws s t ht herr
  obtain ⟨t', rs, ht', hout, hiff⟩ := runCommands_err_eq_false_iff ws s
  cases ht'.symm.trans ht
  obtain ⟨hstart, hall⟩ := hiff.mp herr
  refine ⟨hstart, ?_⟩
  rwa [State.allOkFrom, hout, List.drop_left]

/-! ## The two errors (R67, R68) and waiting (R77) -/

/-- Settles O8: a reserved OP does not decode, and its illegal command raises ILLEGAL_OP. -/
theorem reservedOpFailsWithIllegalOp : Obligations.ReservedOpFailsWithIllegalOp := by
  intro s a op rest hop
  have hd := decode_reserved (w := mkCommand a op) (by rwa [cmdOp_mkCommand])
  rw [step_accepting, runCommand_reserved hd, raiseError_eq]
  rfl

/-- Settles O36: an unseeded draw raises NOT_SEEDED, and SEED has no guard. -/
theorem drawBeforeSeedFails : Obligations.DrawBeforeSeedFails := by
  refine ⟨fun i s hi hs => ?_, fun v s => ⟨_, _, rfl, rfl, rfl⟩⟩
  have raised := raiseError_eq .notSeeded s
  rw [hs] at raised
  exact (exec_draw_unseeded hi hs).trans raised

/-- Settles O9: with an empty inbox there is no event to take. -/
theorem waitingKeepsAllState : Obligations.WaitingKeepsAllState :=
  fun _ => step_waiting

end Sys2Proof.Machine
end

section
/-! PROOFS. The statements about reset and hazards (spec/70_reset_and_hazards.md): reset, the runs that answer every
command, the latencies that no step reads, and the number of generator steps of each command. -/

namespace Sys2Proof.Machine

/-! ## Every run of commands is answered (R88) -/

/-- A run of commands empties the port and appends one response per command. -/
theorem runCommands_responds (ws : List Command) (s : State) :
    ∃ t rs, runCommands ws s = .next t ∧ t.inbox = [] ∧ t.outbox = s.outbox ++ rs ∧ rs.length = ws.length := by
  induction ws generalizing s with
  | nil => exact ⟨_, [], rfl, rfl, (List.append_nil _).symm, rfl⟩
  | cons w ws ih =>
    obtain ⟨c, v, s', he, -, hout, -⟩ := runCommand_responds w s
    obtain ⟨t, rs, ht, hempty, hrest, hlen⟩ := ih (s'.send { code := c, status := s'.status, result := v })
    refine ⟨t, { code := c, status := s'.status, result := v } :: rs, (runCommands_cons he ws).trans ht, hempty, ?_,
      congrArg (· + 1) hlen⟩
    rw [hrest, send_outbox, hout, List.append_assoc, List.singleton_append]

/-- Settles O13: the record of responses grows at its end, by as many as there are commands. -/
theorem runAnswersEveryCommand : Obligations.RunAnswersEveryCommand := by
  intro ws s
  obtain ⟨t, rs, ht, hempty, hout, hlen⟩ := runCommands_responds ws s
  exact ⟨t, ht, hempty, by rw [hout, List.length_append, hlen], by rw [hout, List.take_left]⟩

/-! ## No step reads a latency (R87) -/

/-- The state of a block that differs in its latencies alone. -/
def State.withLatency (s : State) (l : Latency) : State := { s with params := { s.params with latency := l } }

/-- Other latencies carry over from the state before to the answer. -/
def IgnoresLatency (f : State → Result) : Prop :=
  ∀ (s t : State) (l : Latency), f s = .next t → f (s.withLatency l) = .next (t.withLatency l)

theorem refill_withLatency (s : State) (l : Latency) : (s.withLatency l).refill = s.refill.withLatency l := by
  rw [State.withLatency, refill_setParams, State.withLatency, refill_params]

theorem raiseError_ignoresLatency (c : Code) : IgnoresLatency (raiseError c) := by
  intro s t l h
  cases eq_send_of_respond h
  rfl

theorem exec_bool_ignoresLatency : IgnoresLatency (exec .bool) := by
  intro s t l h
  cases hs : s.seeded with
  | false =>
    rw [exec_draw_unseeded rfl hs] at h
    rw [exec_draw_unseeded (s := s.withLatency l) rfl hs]
    exact raiseError_ignoresLatency _ s t l h
  | true =>
    cases (exec_bool_seeded hs).symm.trans h
    rw [exec_bool_seeded (s := s.withLatency l) hs, refill_withLatency]
    rfl

theorem exec_ignoresLatency (i : Instr) : IgnoresLatency (exec i) := by
  intro s t l h
  by_cases hb : i = .bool
  · subst hb
    exact exec_bool_ignoresLatency s t l h
  · rw [State.withLatency, State.withLatency, exec_params h]
    exact exec_setParams hb (fun _ => rfl) h

theorem step_ignoresLatency : IgnoresLatency step := by
  intro s t l h
  rcases step_cases s with ⟨hp, hst⟩ | ⟨w, rest, i, hp, hd, hst⟩ | ⟨w, rest, op, hp, hd, hst⟩ | ⟨rest, hp, hst⟩ <;>
    rw [hst] at h
  · cases h
    exact step_waiting (s := s.withLatency l) hp
  · rw [step_command (s := s.withLatency l) hp, runCommand_ok hd]
    exact exec_ignoresLatency i (s.setInbox rest) t l h
  · rw [step_command (s := s.withLatency l) hp, runCommand_reserved hd]
    exact raiseError_ignoresLatency _ (s.setInbox rest) t l h
  · cases h
    exact step_anyReset (s := s.withLatency l) hp

theorem runFor_ignoresLatency (k : Nat) : IgnoresLatency (runFor k) := by
  induction k with
  | zero => rintro s t l ⟨⟩; rfl
  | succ k ih =>
    intro s t l h
    obtain ⟨s', hs⟩ := step_answers s
    simp only [runFor, hs, step_ignoresLatency s s' l hs] at h ⊢
    exact ih s' t l h

/-- Settles O46: no step of the run reads a latency, and none changes one. -/
theorem latencyNeverMatters : Obligations.LatencyNeverMatters :=
  fun es s t l => runFor_ignoresLatency es.length (s.setInbox es) t l

/-! ## Generator steps of each command (R86) -/

/-- The refill of BOOL steps the generator only where the cache is empty. -/
theorem refill_gen (s : State) : s.refill.gen = Gen.iter (if s.bitMask = 0#32 then 1 else 0) s.gen := by
  by_cases h : s.bitMask = 0#32
  · rw [refill_empty h, if_pos h]; rfl
  · rw [refill_nonempty h, if_neg h]; rfl

/-- NEXT takes a step for each sentinel it meets and one for the value it returns (R54, R55). -/
theorem exec_next_gen {s : State} (hs : s.seeded = true) :
    ∃ t k, exec .next s = .next t ∧ 1 ≤ k ∧ k ≤ 5 ∧ t.gen = Gen.iter k s.gen := by
  obtain ⟨-, answers⟩ := nextReturnsTheFirstNonSentinel
  obtain ⟨seeded, -⟩ := answers s
  obtain ⟨k, hk, -, -, he⟩ := seeded hs
  exact ⟨_, k + 1, he, Nat.le_add_left 1 k, Nat.succ_le_succ hk, rfl⟩

/-- Settles O48: the steps are those of each command's own rule, and an error touches no generator. -/
theorem generatorStepsOfEachCommand : Obligations.GeneratorStepsOfEachCommand := by
  refine ⟨fun v s => ⟨_, rfl, rfl⟩, fun i s hs hi => ?_, fun s => exec_next_gen, fun s hs => ?_, fun i s hs hi => ?_,
    fun s t w rest r ht hout hcode => ?_⟩
  · rcases hi with rfl | rfl <;> exact ⟨_, whenSeeded_respond_setGen hs _ _, rfl⟩
  · exact ⟨_, exec_bool_seeded hs, refill_gen s⟩
  · rcases hi with rfl | rfl <;> exact ⟨_, whenSeeded_respond_setGen hs _ _, rfl⟩
  · obtain ⟨ht', -⟩ := errorsChangeOnlyTheErrorFlag s t w rest r ht hout hcode
    rw [ht']

/-! ## Reset (R18, R79, R80) -/

/-- Settles O14: power-on and the reset event leave the same values, and only which free words they draw differs. -/
theorem resetPutsRegistersToResetValues : Obligations.ResetPutsRegistersToResetValues :=
  ⟨⟨rfl, rfl, rfl, rfl, rfl⟩, fun s rest => ⟨_, step_reset s rest, rfl, rfl, rfl, rfl, rfl, rfl⟩⟩

/-- Settles O15: by what `applyReset` leaves of a state whose port stands at `rest`. -/
theorem resetKeepsPortAndParameters : Obligations.ResetKeepsPortAndParameters := by
  intro s rest t h
  cases (step_reset s rest).symm.trans h
  exact ⟨rfl, rfl, rfl, rfl⟩

/-- Settles O16: the step on either event is `applyReset`; the command is not run. -/
theorem resetDuringACommandCancelsIt : Obligations.ResetDuringACommandCancelsIt :=
  fun s w rest => ⟨_, step_resetDuring s w rest, step_reset s rest, rfl⟩

end Sys2Proof.Machine
end
